-- ==== Sys2Proof/Word.lean ====
section
/-!
DEFINITION. The word types of the part and the one shape of sparse storage.
Widths are those of R13 and R75; nothing here decides any behaviour.
-/
namespace Sys2Proof

/-- One byte. -/
abbrev Byte := BitVec 8
/-- One 32-bit register or pad word. -/
abbrev Word := BitVec 32
/-- One 64-bit instruction word (R80). -/
abbrev DWord := BitVec 64

/-- Sparse storage keyed by number: keys strictly rising, no entry equal to the value an absent key reads as.
The functions that read and write it are in `Sys2Proof.Machine.Ops`. -/
abbrev Table (α : Type) := List (Nat × α)

end Sys2Proof
end

