-- ==== Sys2Proof/Syntax.lean ====
section
/-!
DEFINITION. The commands of the part: one constructor per row of `spec/opcode_table.json`, and the operands they carry.
A command is an operation or event of the part, whole and indivisible: a core's instruction word, a message the host
sends, an event on a pin, or an event that a unit of the part meets. Physical circumstances that no earlier command fixes
(a measured voltage, a parity error, the bytes of a message) are operands.
-/
namespace Sys2Proof

/-- What a read of a 64-bit pad word meets (R107): the word, counted from the one the access begins in, and the flipped
bits of its codeword. Bits 0 to 63 are data; the check bits follow, 64 to 71 in the A- and P-pad, 64 in the W-pad. -/
inductive PadErr where
  | single (word bit : Nat)
  | double (word a b : Nat)
  deriving DecidableEq, Repr

/-- What the engine's checks meet in one operation (R44, R45, R107): flips of a row segment of a plane as vector `v` reads it
(bits 0 to 63 data, bit 64 its parity bit), a quarter sum of a column that is off by `delta` for vector `v`, an error of an
A-pad word of vector `v`, or flipped bits of its slice exponent in the shadow. -/
inductive EngFault where
  | parity (v plane seg : Nat) (flip : BitVec 65)
  | residue (plane q v col : Nat) (delta : Int)
  | word (v : Nat) (e : PadErr)
  | shadow (v : Nat) (flip : Byte)
  deriving DecidableEq, Repr

/-- A symbol of a stored burst changed in the DRAM (R120). -/
structure SymFlip where
  burst : Nat
  sym   : Nat
  mask  : Byte
  deriving DecidableEq, Repr

/-- What changes on an input lane a router reads (R139, R140, R153): flipped bits of the 531-bit lane word, and a step of
the seam queue's synchronised pointer by more than one bit. -/
structure LaneErr where
  lane : Nat
  flip : Nat
  gray : Bool
  deriving DecidableEq, Repr

/-- Where a flit reaches a switch from (R167): a tree link, or a core of the cluster, whose
pad read may meet errors (R107). -/
inductive FlitSource where
  | link
  | core (pos : Nat) (es : List PadErr)
  deriving DecidableEq, Repr

/-- What the session layer gives the processing of one message (R312, R323, R476): the session, the message's SEQ, the
interface it came by, PART and LEN of its header, and the OR of its body fields marked 0. -/
structure Msg where
  ses   : Nat
  seq   : Nat
  iface : Nat
  part  : Nat
  len   : Nat
  rsv   : Nat
  deriving DecidableEq, Repr
/-- What the head owners and cores hand the serving engine for one item of a committed step (R65, R232, R233, R285,
R287): logits z of the main model at each position as FP32 patterns by token number, the draft model's at each drafted
position, the residual vectors and the rows' reference statistics after each position (key, the
maximum m at the end of ingest, and the sum l), and the rows committed clamped or with l = 0. An ingest item gives one of each, after its
last position. -/
structure CommitItem where
  main    : List (List Word)
  draft   : List (List Word)
  resid   : List (List (Nat × List Word))
  rows    : List (List (Nat × Word × Word))
  clamped : Nat
  zeroed  : Nat
  deriving DecidableEq, Repr
/-- What a head owner met in a combined record of a run that is not committed (R232): the request's index, the row, c and E of a
clamp as FP32 words, or c = 0 for a row with l = 0. -/
structure RhoRaise where
  idx : Nat
  row : Nat
  c   : Word
  e   : Word
  deriving DecidableEq, Repr

/-- How a datagram reaches the device (R305, R311, R322): the interface, its source address and UDP port as one number,
its 802.1Q VLAN identifier if it is tagged, and the WINDOW of its header. -/
structure Arrive where
  iface  : Nat
  addr   : Nat
  tag    : Option Nat
  window : Nat
  deriving DecidableEq, Repr
/-- A Wohatrum datagram of a session as it arrives (R306, R311, R312, R316, R318): the header fields, the body bytes
that follow, 802.1p priority, CE mark, whether it is an IP fragment, and the key its sealing verifies under. -/
structure Dgram where
  iface  : Nat
  addr   : Nat
  tag    : Option Nat
  prio   : Nat
  ce     : Bool
  frag   : Bool
  ver    : Nat
  cls    : Nat
  typ    : Nat
  flags  : BitVec 8
  ses    : Nat
  seq    : Nat
  ack    : Nat
  xmit   : Nat
  corr   : Nat
  len    : Nat
  status : Nat
  part   : Nat
  window : Nat
  rsv    : Nat
  body   : Nat
  key    : Nat
  deriving DecidableEq, Repr
/-- Failures of a region's self-test (R411): cores or spares, cores with a vault that fails whole, rows of vaults to retire
(core, and 8192 × DRAM wafer + 512 × bank + row), and whether a seam queue fails. -/
structure SelfTest where
  cores : List Nat
  lost  : List Nat
  rows  : List (Nat × Nat)
  seam  : Bool
  deriving DecidableEq, Repr
/-- Running firmware of an inserted card or optical engine (R446): VERSION, SVN and MIN. -/
structure FwInfo where
  version : Nat
  svn     : Nat
  mins    : List Nat
  deriving DecidableEq, Repr
/-- A request's parameters (R276). -/
structure ReqParam where
  (part tenant tag promptLen maxNew adapter prio width temp topK topP seed : Nat)
  stop : List Nat
  (pin kvTtl flags : Nat)
  deriving DecidableEq, Repr

/-- One 10 µs measurement of the power sensors (R381, R390). Lists run over regions, zones and groups. -/
structure PowerMeas where
  pin    : Nat                       -- W at the feeds
  voltA  : Nat                       -- 10 mV
  curA   : Nat                       -- 0.1 A
  voltB  : Nat
  curB   : Nat
  watts  : List Nat                  -- input-referred power by region, W
  vvault : List Nat                  -- VVAULT current by region, 10 mA
  zones  : List Nat                  -- VIN current by skein zone, 0.1 A
  groups : List (Nat × Nat × Nat)    -- by group: mean VCORE current, its value at full activity, its leakage; 10 mA
  deriving DecidableEq, Repr

/-- The readings of one sweep (R395): 1/16 °C, none for a sensor that fails to convert. -/
structure Sweep where
  logic : List (Option Int)
  dram  : List (Option Int)
  therm : List (Option Int)
  deriving DecidableEq, Repr

/-- The commands. -/
inductive Instr where
  /-- NOP (R90). Core issues a NOP that holds the issue stage for CNT+1 cycles. -/
  | nop (c : Nat) (w : DWord)
  /-- END (R90). Core issues END and begins waiting for all its issued operations to complete. -/
  | endRun (c : Nat) (w : DWord)
  /-- END_COMPLETE (R90). The operations awaited by END have completed; the core reports the run done to the region
  agent and idles. -/
  | endComplete (c : Nat)
  /-- HALT (R90). Core stops in a debug bit-stream and the region agent reports the stop and PC. -/
  | halt (c : Nat) (w : DWord)
  /-- JMP (R89). PC is set to TGT and loop-stack entries whose body excludes TGT are popped. -/
  | jmp (c : Nat) (w : DWord)
  /-- LOOP (R86). Pushes a fixed-trip loop entry with CNT+1 trips. -/
  | loop (c : Nat) (w : DWord)
  /-- LOOPS (R87). Pushes a loop whose trip count is read from a scalar register, skipping the body on 0. -/
  | loops (c : Nat) (w : DWord)
  /-- ADD (R90). Scalar addition into RD. -/
  | add (c : Nat) (w : DWord)
  /-- SUB (R90). Scalar subtraction into RD. -/
  | sub (c : Nat) (w : DWord)
  /-- MUL (R90). Low 32 bits of a scalar product into RD. -/
  | mul (c : Nat) (w : DWord)
  /-- AND (R90). Bitwise AND into RD. -/
  | and (c : Nat) (w : DWord)
  /-- OR (R90). Bitwise OR into RD. -/
  | or (c : Nat) (w : DWord)
  /-- XOR (R90). Bitwise XOR into RD. -/
  | xor (c : Nat) (w : DWord)
  /-- SHF (R90). Left, logical right or arithmetic right shift by SUB. -/
  | shf (c : Nat) (w : DWord)
  /-- LDI (R90). Loads an immediate into RD. -/
  | ldi (c : Nat) (w : DWord)
  /-- PCMP (R90). Scalar compare writing every bit of a predicate register. -/
  | pcmp (c : Nat) (w : DWord)
  /-- PLOG (R90). Predicate logic or immediate load into a predicate register. -/
  | plog (c : Nat) (w : DWord)
  /-- MFSR (R90). Reads a special register into RD. -/
  | mfsr (c : Nat) (w : DWord)
  /-- MTSR (R90). Writes a special register, such as clearing UNFCNT or writing DBGMARK. -/
  | mtsr (c : Nat) (w : DWord)
  /-- EMM (R91). Issues one engine operation of b x V cycles with the encoded width, fold, addresses, masks and e_ref.
  -/
  | emm (c : Nat) (w : DWord) (fs : List EngFault)
  /-- EMMR (R91). Issues an engine operation whose V is read from a scalar register, issuing nothing for 0. -/
  | emmr (c : Nat) (w : DWord) (fs : List EngFault)
  /-- ENGINE_OUTPUT_WRITE (R41). The engine aligns, accumulates and saturates a vector's outputs and writes them to
  the P-pad. -/
  | engineOutputWrite (c : Nat)
  /-- ENGINE_TILE_RELEASE (R32). At t0 + b x V the engine releases the tile's W-pad space and accepts its next
  operation. -/
  | engineTileRelease (c : Nat)
  /-- ECLR (R92). Issues the status-clearing instruction, which first waits for the engine to drain. -/
  | eclr (c : Nat) (w : DWord)
  /-- ECLR_CLEAR (R92). Once the engine has drained, ECLR clears SAT, BXO, PAR, RES, UND and W in ESTAT. -/
  | eclrClear (c : Nat)
  /-- EWAIT (R92). Core waits until every issued engine operation's outputs are readable. -/
  | ewait (c : Nat) (w : DWord)
  /-- EWAIT_RELEASE (R92). The awaited engine outputs become readable and the core resumes issue. -/
  | ewaitRelease (c : Nat)
  /-- VADD (R95). Lane-wise FP32 addition. -/
  | vadd (c : Nat) (w : DWord)
  /-- VSUB (R95). Lane-wise FP32 subtraction. -/
  | vsub (c : Nat) (w : DWord)
  /-- VMUL (R95). Lane-wise FP32 multiplication. -/
  | vmul (c : Nat) (w : DWord)
  /-- VFMA (R95). Lane-wise fused multiply-add with one rounding. -/
  | vfma (c : Nat) (w : DWord)
  /-- VMAX (R95). Lane maximum. -/
  | vmax (c : Nat) (w : DWord)
  /-- VMIN (R95). Lane minimum. -/
  | vmin (c : Nat) (w : DWord)
  /-- VEXP (R95). Lane-wise exponential. -/
  | vexp (c : Nat) (w : DWord)
  /-- VRCP (R95). Lane-wise reciprocal. -/
  | vrcp (c : Nat) (w : DWord)
  /-- VRSQ (R95). Lane-wise reciprocal square root. -/
  | vrsq (c : Nat) (w : DWord)
  /-- VACT (R95). Lane-wise GELU or SiLU. -/
  | vact (c : Nat) (w : DWord)
  /-- VCMP (R95). Lane-wise compare into a predicate register. -/
  | vcmp (c : Nat) (w : DWord)
  /-- VSEL (R95). Lane-wise select by predicate. -/
  | vsel (c : Nat) (w : DWord)
  /-- VRED (R95). Sum or maximum over the 16 lanes in a fixed pairwise tree. -/
  | vred (c : Nat) (w : DWord)
  /-- VBCST (R95). Broadcasts a scalar register or one lane to all lanes. -/
  | vbcst (c : Nat) (w : DWord)
  /-- VCVA (R56). Converts vector registers to the engine activation format and writes the slice exponent to the
  shadow. -/
  | vcva (c : Nat) (w : DWord) (entry : Nat)
  /-- VCVM (R59). Converts register blocks to an MX format in a pad. -/
  | vcvm (c : Nat) (w : DWord)
  /-- VCVF (R95). Reads values of a given format from a pad and writes FP32 registers. -/
  | vcvf (c : Nat) (w : DWord) (es : List PadErr := [])
  /-- VQKV (R64). Quantises a KV head vector with error diffusion, updating the residual and writing elements and
  scale. -/
  | vqkv (c : Nat) (w : DWord) (es : List PadErr := [])
  /-- VDQP (R54). Dequantises P-pad words into FP32 registers. -/
  | vdqp (c : Nat) (w : DWord) (es : List PadErr := [])
  /-- LD (R97). Loads a word, halfword or byte into a register. -/
  | ld (c : Nat) (w : DWord) (es : List PadErr)
  /-- ST (R97). Stores a word, halfword or byte to a pad. -/
  | st (c : Nat) (w : DWord) (es : List PadErr := [])
  /-- LDV (R97). Loads a vector register from FP32 or BF16 pad data. -/
  | ldv (c : Nat) (w : DWord) (es : List PadErr)
  /-- STV (R97). Stores a vector register as FP32 or BF16. -/
  | stv (c : Nat) (w : DWord)
  /-- PCPY (R97). Copies 64-byte lines within the core at 128 B per cycle. -/
  | pcpy (c : Nat) (w : DWord) (es : List PadErr := [])
  /-- VLD (R97). Queues a vault stream of bursts converted to bit-planes into a W-pad circular region. -/
  | vld (c : Nat) (w : DWord)
  /-- TILE_COMMIT (R124). A tile's last burst is decoded and W-pad room exists, so its planes and shift vector are
  written and HEAD advances. -/
  | tileCommit (c : Nat) (fs : List SymFlip)
  /-- VAULT_RUN_RESUME (R124). A tile buffer frees and the paused vault run resumes. -/
  | vaultRunResume (c : Nat)
  /-- VRD (R97). Queues a raw vault-to-pad granule transfer. -/
  | vrd (c : Nat) (w : DWord) (fs : List SymFlip)
  /-- VAULT_OPERATION_COMPLETE (R96). A queued vault operation finishes and frees its queue entry. -/
  | vaultOperationComplete (c : Nat) (wait : Nat := 0) (fs : List SymFlip := []) (es : List (Nat × PadErr) := [])
  /-- VWR (R126). Queues a pad-to-vault transfer whose bursts become visible within the padded bound. -/
  | vwr (c : Nat) (w : DWord)
  /-- CRADV (R115). Advances a circular region's head or tail, clamping and raising class 0x0F on overrun. -/
  | cradv (c : Nat) (w : DWord)
  /-- TSEND (R168). Sends one packet from the pad on VC1 or VC2. -/
  | tsend (c : Nat) (w : DWord)
  /-- TWAIT (R97). Core waits until an A-pad circular region holds enough bytes. -/
  | twait (c : Nat) (w : DWord)
  /-- TWAIT_RELEASE (R97). The awaited bytes arrive and the core resumes issue. -/
  | twaitRelease (c : Nat)
  /-- LSEND (R98). Takes a lattice descriptor offering lanes to a slot. -/
  | lsend (c : Nat) (w : DWord)
  /-- LRECV (R98). Takes a lattice descriptor receiving lanes from a slot. -/
  | lrecv (c : Nat) (w : DWord)
  /-- LPUT (R117). Issues a credited write into a neighbour's circular region, stalling while credit is short. -/
  | lput (c : Nat) (w : DWord)
  /-- LPUT_CREDIT_RELEASE (R117). Enough credits return and a stalled LPUT proceeds. -/
  | lputCreditRelease (c : Nat)
  /-- LCRD (R118). Returns credits to a neighbour, clamping and raising class 0x0F on over-return. -/
  | lcrd (c : Nat) (w : DWord)
  /-- BAR (R99). Arrives at a partition barrier, with FLG first draining the engine and contributing flags. -/
  | bar (c : Nat) (w : DWord)
  /-- BARW (R99). Core waits until every core of the partition has arrived at the barrier. -/
  | barw (c : Nat) (w : DWord)
  /-- BARW_RELEASE (R100). The barrier release arrives, the flag word is written and a flagged word stops the run. -/
  | barwRelease (c entry : Nat) (err : Option Nat)
  /-- WAITC (R99). Core waits until FCYC reaches a given cycle. -/
  | waitc (c : Nat) (w : DWord)
  /-- WAITC_RELEASE (R99). FCYC reaches the awaited cycle and the core resumes. -/
  | waitcRelease (c : Nat)
  /-- WAITF (R99). Core waits for the next slot frame. -/
  | waitf (c : Nat) (w : DWord)
  /-- FENCE (R99). Core waits for the selected units' operations to complete. -/
  | fence (c : Nat) (w : DWord)
  /-- FENCE_RELEASE (R99). The fenced operations complete and the core resumes. -/
  | fenceRelease (c : Nat)
  /-- EVT (R99). Raises class 0x0B carrying a code and the PC. -/
  | evt (c : Nat) (w : DWord)
  /-- FRAME_BOUNDARY (R142). A region's count reaches the end of a slot frame, where gates, lulls and freezes take
  effect. -/
  | frameBoundary (r gate : Nat)
  /-- ROUTER_SLOT (R145). A router entry drives its output at its slot, multicasting, adding or delivering. -/
  | routerSlot (c slot : Nat) (es : List LaneErr) (ps : List PadErr := [])
  /-- SEAM_HOLD_END (R155). The awaited flit or queue room arrives and the region resumes 4 cycles later. -/
  | seamHoldEnd (r cycles : Nat) (stalls : List Nat)
  /-- CREDIT_WORD_ARRIVAL (R149). A credit word arrives and the writer's credit counter rises. -/
  | creditWordArrival (c dir : Nat) (gray : Bool := false)
  /-- TREE_FLIT_ARRIVAL (R176). A switch receives a flit, checks CRC, combines reductions and forwards by group or
  address. -/
  | treeFlitArrival (sw vc : Nat) (src : FlitSource) (err : Nat)
  /-- TREE_DELIVERY (R175). A cluster port delivers a packet into a core's circular region, advancing HEAD. -/
  | treeDelivery (c err : Nat)
  /-- TREE_ACK (R177). An end-to-end acknowledgement arrives for a VC2 or VC3 packet. -/
  | treeAck (seqno : Nat)
  /-- TREE_RESEND (R177). No ACK after 20 us, so the packet is resent, or after three resends class 0x1F is raised. -/
  | treeResend (seqno : Nat)
  /-- BARRIER_ARRIVAL (R178). A barrier arrival reaches a switch and is combined, with the apex sending the release.
  -/
  | barrierArrival (sw : Nat) (err : Option Nat) (waits : List (Nat × Nat))
  /-- SWITCH_OUT_OF_SERVICE (R180). The steward orders a trunk or root half out of service and children move to second
  parents. -/
  | switchOutOfService (h : Nat)
  /-- SWITCH_DRAINED (R180). A switch reports empty and is marked dark with class 0x1E. -/
  | switchDrained (h : Nat)
  /-- SWITCH_RETURN (R180). A hosted switch reports ready and first parents are restored. -/
  | switchReturn (h : Nat)
  /-- STEP_LAUNCH (R282). The serving engine chooses the program and batch and launches a partition step. -/
  | stepLaunch (p : Nat)
  /-- STEP_COMMIT (R241). Every core has reached END, so the step's positions, residuals and references are committed.
  -/
  | stepCommit (p : Nat) (l : List CommitItem) (fac : List (Nat × Nat × List Byte))
  /-- REPLAY_RESTART (R67). After the 4,200-cycle gap the step restarts from its first layer. -/
  | replayRestart (p : Nat) (raised : List RhoRaise := [])
  /-- FAULT_STEP_ABANDON (R108). A fault class reported at layer end abandons the step and counts a strike. -/
  | faultStepAbandon (p : Nat)
  /-- FAULT_RERUN (R414). After the 4,200-cycle gap the abandoned step is re-run, or after the fifth fault the
  partition goes down. -/
  | faultRerun (p : Nat) (raised : List RhoRaise := [])
  /-- STEP_WATCHDOG (R203). A core has not reached END within STEP_WDOG, so the step is abandoned with class 0x00. -/
  | stepWatchdog (p : Nat)
  /-- RESHARD_COMPLETE (R247). Every half-slice of a request has moved, so its pages become spin-layout and ingest
  frames free. -/
  | reshardComplete (u : Nat)
  /-- HEARTBEAT_SAMPLE (R413). The region agent samples and clears core heartbeats every 100 us, declaring silent
  cores dead. -/
  | heartbeatSample (r : Nat) (silent : List Nat)
  /-- LIVE_REPAIR (R416). The steward accepts a dead-core declaration, holds requests and freezes the partition. -/
  | liveRepair (p : Nat)
  /-- REPAIR_COPY_DONE (R130). The row bus repair copy completes and the partition is emptied and relaunched. -/
  | repairCopyDone (p : Nat)
  /-- VAULT_RESTORE_DONE (R418). A lost vault's weights are restored from the spool and the partition relaunches. -/
  | vaultRestoreDone (p : Nat)
  /-- AGENT_HEARTBEAT_MISS (R420). A region agent misses three heartbeats and is restarted once. -/
  | agentHeartbeatMiss (r : Nat)
  /-- STEWARD_FAILOVER (R430). The active steward misses three heartbeats and the standby becomes active. -/
  | stewardFailover
  /-- NO_STEWARD (R430). No steward is in service for 20 ms, so every partition goes down and the wafer powers off. -/
  | noSteward
  /-- INIT (R317). Host opens a handshake and the device answers with a signed CHALLENGE. -/
  | init (a : Arrive) (body : List Byte)
  /-- PROVE (R319). Host proves its key; the device accepts the session with ACCEPT or refuses it. -/
  | prove (a : Arrive) (ses : Nat) (hpk : List Byte) (hsig : Nat) (valid : Bool)
  /-- HANDSHAKE_TIMEOUT (R317). PROVE does not arrive within 1 s of CHALLENGE and the half-open session is dropped. -/
  | handshakeTimeout (ses : Nat)
  /-- PING (R320). Keeps a session open. -/
  | ping (m : Msg)
  /-- CLOSE (R320). Ends a session at once, stopping its pushes and cancelling CANCEL_ON_CLOSE requests. -/
  | close (m : Msg)
  /-- REKEY (R320). Derives new session keys and toggles the key phase. -/
  | rekey (m : Msg) (answer : Bool) (kem : List Byte)
  /-- ACKONLY (R315). An acknowledgement-only datagram advances the peer's acknowledged messages. -/
  | ackonly (d : Dgram)
  /-- DATAGRAM_RECEIVE (R315). A session datagram is authenticated, windowed, deduplicated and queued in SEQ order. -/
  | datagramReceive (d : Dgram)
  /-- MESSAGE_RETRANSMIT (R315). An unacknowledged message is resent at the doubling interval. -/
  | messageRetransmit (ses seq : Nat)
  /-- SESSION_LOST (R315). A message stays unacknowledged for 1 s, so the session closes with class 0x3F. -/
  | sessionLost (ses : Nat)
  /-- SESSION_IDLE_TIMEOUT (R320). No datagram for the granted IDLE time closes the session. -/
  | sessionIdleTimeout (ses : Nat)
  /-- REG_READ (R327). Reads register words in ascending order, clearing RC fields. -/
  | regRead (m : Msg) (addr count : Nat)
  /-- REG_WRITE (R461). Writes register words that have no row of their own under the common access rules. -/
  | regWrite (m : Msg) (addr : Nat) (vals : List Word)
  /-- ETH_MODE_CHANGE (R304). A port mode write takes the port's links down and up again within 500 ms. -/
  | ethModeChange (m : Msg) (v : Word)
  /-- BYPASS_FORCE (R307). A FORCE write switches the optical bypass to BYPASS, THROUGH or automatic. -/
  | bypassForce (m : Msg) (v : Word)
  /-- IMG_START (R328). Starts an image, bit-stream or firmware transfer. -/
  | imgStart (m : Msg) (kind target slot hops total : Nat)
  /-- IMG_BLOCK (R191). Stores a transfer block and runs the verification steps that become due. -/
  | imgBlock (m : Msg) (xfer off : Nat) (data : List Byte) (sig : Bool)
  /-- WEIGHTS_LOADED (R260). Every unit is written and copied to standby regions, so the partition enters READY. -/
  | weightsLoaded (p : Nat)
  /-- TRANSFER_TIMEOUT (R191). A transfer receives no block for 60 s and is abandoned. -/
  | transferTimeout (xfer : Nat)
  /-- IMG_CANCEL (R193). Cancels a transfer, discarding staged bytes and reservations. -/
  | imgCancel (m : Msg) (xfer : Nat)
  /-- SPL_LIST (R338). Returns stored bit-streams or images in digest order. -/
  | splList (m : Msg) (kind count first : Nat)
  /-- SPL_DELETE (R338). Deletes both copies of a stored object unless it is in use. -/
  | splDelete (m : Msg) (kind digest : Nat)
  /-- LOAD_STORED (R478). Verifies a stored bit-stream against a partition and loads it. -/
  | loadStored (m : Msg) (digest : Nat)
  /-- PARTIAL_APPLY (R220). After steps in flight end, a verified partial container's sections are applied. -/
  | partialApply (p : Nat)
  /-- UNLOAD (R195). Unloads an idle partition, zero-filling its vaults and releasing its resources. -/
  | unload (m : Msg)
  /-- FORCED_UNLOAD (R195). Unloads a partition with its force flag, ending its requests with ABORTED. -/
  | forcedUnload (m : Msg)
  /-- DOFF_STAGED (R269). Starts a staged doff writing new units into staging slots. -/
  | doffStaged (m : Msg) (digest : Nat)
  /-- DOFF_IN_PLACE (R270). Starts an in-place doff staging slices in spare vaults. -/
  | doffInPlace (m : Msg) (digest : Nat)
  /-- DOFF_SWITCH (R268). All staged units are written, so the pointer table is swapped and the epoch raised before
  the next launch. -/
  | doffSwitch (p : Nat)
  /-- IN_PLACE_UNIT_HOLD (R270). After the step in flight ends, one unit's slices are copied into live slots and the
  epoch raised. -/
  | inPlaceUnitHold (p : Nat)
  /-- DOFF_CANCEL (R269). Cancels a doff before its switch, freeing staged slots. -/
  | doffCancel (m : Msg)
  /-- ADAPTER_SET_READY (R264). Sets an adapter slot READY. -/
  | adapterSetReady (m : Msg) (slot : Nat)
  /-- ADAPTER_RETIRE (R264). Orders an adapter slot to RETIRING. -/
  | adapterRetire (m : Msg) (slot : Nat)
  /-- ADAPTER_NAME_TUNING (R266). Names a LOADING adapter slot as the tuning slot. -/
  | adapterNameTuning (m : Msg) (slot : Nat)
  /-- TUNE (R266). Requests tuning steps over named examples. -/
  | tune (m : Msg) (slot steps : Nat) (ids : List Nat)
  /-- SUBMIT (R277). Submits a request, which is admitted into QUEUED or refused. -/
  | submit (m : Msg) (q : ReqParam) (toks : List Nat)
  /-- PROMPT (R326). Delivers a block of prompt or appended tokens in order. -/
  | prompt (m : Msg) (id off : Nat) (toks : List Nat)
  /-- PROMPT_TIMEOUT (R276). A prompt is incomplete 60 s after its last block, so the request ends EXPIRED. -/
  | promptTimeout (u : Nat)
  /-- READ (R293). Reads a stored chunk of a request. -/
  | read (m : Msg) (id n : Nat)
  /-- STATUS (R477). Returns a request's state and counts. -/
  | status (m : Msg) (id : Nat)
  /-- CANCEL (R281). Cancels a request, writing its final chunk. -/
  | cancel (m : Msg) (id : Nat)
  /-- PAUSE (R295). Orders a request to pause at its next spin boundary. -/
  | pause (m : Msg) (id : Nat)
  /-- RELEASE (R281). Releases a paused request to DONE or frees an ended entry. -/
  | release (m : Msg) (id : Nat)
  /-- CLAIM (R292). Makes the session the owner of a request. -/
  | claim (m : Msg) (id : Nat)
  /-- RESUME (R298). Resumes a paused or spooled request, with spool-in or re-ingest as needed. -/
  | resume (m : Msg) (id append change : Nat) (v : ReqParam) (toks : List Nat)
  /-- RESULT_TTL_EXPIRY (R281). An ended request's entry is freed after RESULT_TTL. -/
  | resultTtlExpiry (u : Nat)
  /-- HIST_TTL_EXPIRY (R297). A paused or spooled request's history lifetime ends and it goes DONE with EXPIRED. -/
  | histTtlExpiry (u : Nat)
  /-- KV_TTL_EXPIRY (R297). A spooled KV record is discarded and the request marked KV expired. -/
  | kvTtlExpiry (u : Nat)
  /-- PAUSE_DWELL_EXPIRY (R296). PAUSE_DWELL elapses and the paused request's spool-out begins. -/
  | pauseDwellExpiry (u : Nat)
  /-- SPOOL_OUT_DURABLE (R296). The KV record is durable, so frames and state slot free and the request enters
  SPOOLED. -/
  | spoolOutDurable (u : Nat)
  /-- SPOOL_RETRY (R296). A refused spool-out is retried every 1 s. -/
  | spoolRetry (u : Nat)
  /-- SPOOL_IN_COMPLETE (R298). A KV record has been read back into frames and the request continues. -/
  | spoolInComplete (u : Nat)
  /-- SPOOL_WAIT_EXPIRY (R294). SPOOL_WAIT elapses and the short request is stopped with CACHE_FULL. -/
  | spoolWaitExpiry (u : Nat)
  /-- INGEST_WAIT_EXPIRY (R294). INGEST_WAIT elapses and an ingest or re-shard request is stopped. -/
  | ingestWaitExpiry (u : Nat)
  /-- BUCKET_REFILL (R290). Every 1 ms each tenant bucket rises by RATE/1000 up to DEPTH. -/
  | bucketRefill
  /-- TEL_SUB (R464). Subscribes a session to telemetry kinds at a period. -/
  | telSub (m : Msg) (period kinds : Nat)
  /-- TEL_RECORD (R464). A telemetry period elapses and a record is pushed. -/
  | telRecord (ses kind : Nat)
  /-- QUOTE (R454). Returns a signed attestation quote. -/
  | quote (m : Msg) (nonce parts sel : Nat)
  /-- IDENTITY (R323). Returns the serial and device identity key. -/
  | identity (m : Msg)
  /-- EVT_READ (R479). Returns event records held in the ring. -/
  | evtRead (m : Msg) (first count : Nat)
  /-- EVT_SUB (R323). Subscribes a session to event classes. -/
  | evtSub (m : Msg) (classes : BitVec 64)
  /-- ABORT_PARTITION (R428). Aborts one partition within its bounds. -/
  | abortPartition (m : Msg)
  /-- ABORT_DEVICE (R428). Aborts every partition and ends host image transfers. -/
  | abortDevice (m : Msg)
  /-- HELLO_SEND (R329). Every 1 s the device sends HELLO on A0 and B0. -/
  | helloSend
  /-- HELLO (R329). A received HELLO teaches the device its neighbour on that port. -/
  | hello (port serial rsv : Nat)
  /-- RLY_START (R329). A neighbour starts relaying a firmware image. -/
  | rlyStart (port serial kind hops total : Nat)
  /-- RLY_BLOCK (R329). A relayed firmware block is stored and checked. -/
  | rlyBlock (xfer off : Nat) (data : List Byte) (sig : Bool)
  /-- RLY_DONE (R329). A relayed firmware image completes and is forwarded onward. -/
  | rlyDone (xfer : Nat)
  /-- FRAME_FORWARD (R309). A frame is forwarded between A n and B n. -/
  | frameForward (u dst src prio : Nat)
  /-- PROTOCOL_ANSWER (R305). The device answers ARP, neighbour discovery or echo on an enabled interface. -/
  | protocolAnswer (u : Nat) (tag : Option Nat)
  /-- PFC_PAUSE_FRAME (R316). A received priority flow control frame pauses or releases a priority. -/
  | pfcPauseFrame (u : Nat) (en on_ : BitVec 8)
  /-- LINK_DOWN (R332). An interface link goes down, raising class 0x3F. -/
  | linkDown (u : Nat)
  /-- LINK_UP (R332). An interface link comes up, raising class 0x3F. -/
  | linkUp (u : Nat)
  /-- OPTICAL_ENGINE_REMOVAL_REQUEST (R308). REQ_A or REQ_B powers an optical engine down and sets SAFE. -/
  | opticalEngineRemovalRequest (m : Msg) (v : Word)
  /-- OPTICAL_ENGINE_REMOVED (R308). An optical engine's PRESENT falls. -/
  | opticalEngineRemoved (port : Nat)
  /-- OPTICAL_ENGINE_INSERTED (R308). An inserted optical engine's firmware is checked for compatibility. -/
  | opticalEngineInserted (port : Nat) (f : FwInfo)
  /-- OPTICAL_ENGINE_REQ_CLEAR (R308). Clearing REQ brings the engine's links up. -/
  | opticalEngineReqClear (m : Msg) (v : Word)
  /-- PTP_EVENT_MESSAGE (R369). A PTP event message is timestamped and the alignment servo updated. -/
  | ptpEventMessage (u dom tr : Nat) (t1 t4 : Int) (t2 t3 : Nat)
  /-- PTP_HOLDOVER (R369). No valid exchange for 3 s while LOCKED enters HOLDOVER. -/
  | ptpHoldover
  /-- PPS_EDGE (R370). A 1PPS rising edge is timestamped and drives the servo. -/
  | ppsEdge (t : Nat)
  /-- PPS_EDGE_MISSING (R370). An expected 1PPS edge does not arrive, raising class 0x27 subkind 5. -/
  | ppsEdgeMissing
  /-- WTIME_CHECKPOINT (R365). Every 2^39 ticks the steward writes a WTIME checkpoint to boot flash. -/
  | wtimeCheckpoint
  /-- DROOP_TRIP (R357). A droop sensor trips and the region stretches a period by 1.25 or 1.5 times. -/
  | droopTrip (r : Nat) (next : Bool)
  /-- RATIO_STEP_DOWN (R358). After 8 consecutive stretches the region runs at K-1, raising class 0x26. -/
  | ratioStepDown (r : Nat)
  /-- FLOOR_STRETCH_REPORT (R378). A region stretching at K_floor raises class 0x27 subkind 3 and its set point rises.
  -/
  | floorStretchReport (r : Nat)
  /-- RATIO_STEP_UP (R359). After 65,536 quiet cycles the region raises K by 1. -/
  | ratioStepUp (r : Nat)
  /-- CLOCK_START_RAMP (R360). Every 10 us of start the region raises K by 1 toward K_cap. -/
  | clockStartRamp (r : Nat)
  /-- CLOCK_MONITOR_WINDOW (R362). A domain's 10 us edge count is judged against its thresholds. -/
  | clockMonitorWindow (d kHz : Nat) (noEdge : Bool)
  /-- REGION_CLOCK_RESTART (R363). The region clock unit has restarted and the partition relaunches. -/
  | regionClockRestart (r : Nat)
  /-- ROOT_PLL_UNLOCK (R363). The root PLL unlocks or a root clock fails, so the device aborts and vaults
  self-refresh. -/
  | rootPllUnlock (refLost : Bool)
  /-- PLL_LOCK_RETRY (R363). The root PLL retries lock, every 10 ms up to 3 times. -/
  | pllLockRetry (ok : Bool)
  /-- FEED_UNDERVOLTAGE (R374). A feed below 38 V for 100 us is disconnected. -/
  | feedUndervoltage (b : Bool) (volt : Nat)
  /-- FEED_OVERVOLTAGE (R374). A feed above 63 V is disconnected within 10 us. -/
  | feedOvervoltage (b : Bool) (volt : Nat)
  /-- FEED_RETURN (R374). A feed in return range for 100 ms is reconnected with limited inrush. -/
  | feedReturn (b : Bool) (volt : Nat)
  /-- BOTH_FEEDS_LOST (R374). Both feeds are lost; the rails collapse and the bypass latches. -/
  | bothFeedsLost
  /-- FEED_PRESENT_OPEN (R466). A feed's PRESENT pin opens and its disconnection starts at once. -/
  | feedPresentOpen (b : Bool)
  /-- FEED_REMOVAL_REQUEST (R375). REQ opens a feed's OR-ing stage and sets SAFE, unless the other feed is out of
  range. -/
  | feedRemovalRequest (m : Msg) (b : Bool)
  /-- FEED_REQ_CLEAR (R375). Clearing REQ takes the feed back under the return rule. -/
  | feedReqClear (m : Msg) (b : Bool)
  /-- REGULATOR_DISCONNECT (R379). A regulator disconnects on overcurrent, regulation loss, switching stop or
  over-temperature. -/
  | regulatorDisconnect (g u cause : Nat)
  /-- POWER_MEASURE (R381). Every 10 us input and region powers are measured and charged to partitions. -/
  | powerMeasure (x : PowerMeas)
  /-- POWER_CAP_ADJUST (R381). Every 100 us each partition's power-cap lull share is adjusted. -/
  | powerCapAdjust (p : Nat)
  /-- VCORE_TRIM (R377). Every 100 ms each region's VCORE set point is trimmed by stretch activity. -/
  | vcoreTrim (r : Nat)
  /-- PATH_RESISTANCE_MEASURE (R389). Every 60 s each group's path resistance is measured and CRACK may be set. -/
  | pathResistanceMeasure (g cur uohm : Nat)
  /-- GUST_ADMIT (R384). A region power-on is admitted when zone and module headroom suffice, or retried every 1 ms.
  -/
  | gustAdmit (r : Nat) (regs : List (Nat × Nat)) (bad : SelfTest)
  /-- POWER_ON_REFUSED (R384). A power-on refused for 500 ms or failing a ramp check fails with a cause and class
  0x22. -/
  | powerOnRefused (r cause : Nat)
  /-- REGION_SWITCH_OFF (R386). After the partition drains, a hot region is taken to RETAIN. -/
  | regionSwitchOff (r : Nat)
  /-- STANDBY_RETURN (R387). A RETURN write moves the partition back from its standby region. -/
  | standbyReturn (m : Msg) (p : Nat)
  /-- VMIN_CLEAR (R388). Writing CLR restarts the region's VCORE minimum record. -/
  | vminClear (m : Msg) (r : Nat)
  /-- SWEEP_START (R395). The steward starts a sensor sweep every PERIOD. -/
  | sweepStart
  /-- SWEEP_END (R397). A sweep completes and the steward acts on the effective temperatures. -/
  | sweepEnd (x : Sweep)
  /-- STOP_CONVERSION (R399). During an orderly stop the logic diode is converted every 50 us. -/
  | stopConversion (r : Nat) (t : Option Int)
  /-- COOLING_CONDITION_SET (R403). A cooling condition held for 10 s sets its bit and raises class 0x2D. -/
  | coolingConditionSet (u : Nat)
  /-- COOLING_CONDITION_CLEAR (R403). A cooling condition clear for 60 s clears its bit. -/
  | coolingConditionClear (u : Nat)
  /-- THERMAL_LIFE_PERSIST (R404). Cycle counts and damage persist to the spool every hour. -/
  | thermalLifePersist
  /-- VAULT_REFRESH (R127). A row refresh falls due and is placed in a free bank cycle. -/
  | vaultRefresh (c : Nat)
  /-- VAULT_SCRUB_READ (R132). The scrubber reads a burst and writes back corrections. -/
  | vaultScrubRead (c : Nat) (fs : List SymFlip)
  /-- SECOND_PORT_TIMEOUT (R134). A second port does not respond within 1 ms and the vault is reported lost. -/
  | secondPortTimeout (c : Nat)
  /-- EVENT_RECORD_ENTRY (R425). A waiting record enters the ring when an entry frees, with pending squalls first. -/
  | eventRecordEntry (q : Nat)
  /-- EVENT_PERSIST_BATCH (R427). A batch of 64 records, or a partial batch after 1 s, is persisted to the spool. -/
  | eventPersistBatch
  /-- EVT_ACK (R425). The host acknowledges records, freeing ring entries when no card accepts writes. -/
  | evtAck (m : Msg) (v : Word)
  /-- SPOOL_CARD_REMOVAL_REQUEST (R347). REQ stops new writes to a spool card and starts its removal. -/
  | spoolCardRemovalRequest (m : Msg) (c : Nat)
  /-- SPOOL_CARD_SAFE (R347). The card has flushed and powered down, its KV records expire and SAFE is set. -/
  | spoolCardSafe (c : Nat)
  /-- SPOOL_CARD_REQ_CLEAR (R347). Clearing REQ on a SAFE card returns it to service as an inserted card. -/
  | spoolCardReqClear (m : Msg) (c : Nat)
  /-- SPOOL_CARD_INSERTED (R348). An inserted card trains, is checked and formatted or enters REBUILDING. -/
  | spoolCardInserted (c : Nat) (f : FwInfo) (kind width rate spare pe service a sent : Nat)
  /-- SPOOL_REBUILD_COMPLETE (R348). A rebuild completes and the card enters READY with class 0x36. -/
  | spoolRebuildComplete (c : Nat)
  /-- SPOOL_CARD_LOST (R349). A card leaves without a request and is treated as removed. -/
  | spoolCardLost (c : Nat)
  /-- SPOOL_SCRUB (R343). Each block is read once per SCRUB_DAYS and refreshed if needed. -/
  | spoolScrub (c pkg block tier obj bytes spare : Nat) (old fail : Bool)
  /-- GOVERNOR_RECOMPUTE (R345). At each start and every 24 h a card's write budget RATE is recomputed. -/
  | governorRecompute (c a pe : Nat)
  /-- GOVERNOR_REFILL (R346). Every second a card's level rises by RATE up to DEPTH. -/
  | governorRefill (c : Nat)
  /-- SHRED (R340). Raises a tenant's key generation, ending its paused and spooled requests. -/
  | shred (m : Msg)
  /-- FORMAT (R352). Erases a FOREIGN or READY card and starts its rebuild. -/
  | format (m : Msg) (c : Nat)
  /-- EREF_RESET (R74). Restores every compiled exponent table entry at the next step boundary. -/
  | erefReset (m : Msg) (p : Nat) (decay : Bool)
  /-- AUX_RAIL_UP (R437). The auxiliary rail comes into range and both stewards boot from ROM. -/
  | auxRailUp (p0 p1 : Nat) (alt recover : Bool) (cause : Nat)
  /-- START_COMPLETE (R438). The last region reaches IDLE, DEV_START reads RUNNING and requests and partitions are
  restored. -/
  | startComplete
  /-- START_RETRY (R439). 1 s after a failed start a new start is ordered. -/
  | startRetry (cause : Nat)
  /-- FAILS_RESET (R440). After 60 s in RUNNING FAILS returns to 0. -/
  | failsReset
  /-- DOLDRUMS_RETRY (R440). Writing RETRY clears FAILS and orders a start. -/
  | doldrumsRetry (m : Msg) (autoload : Bool) (cause : Nat)
  /-- SERVICE_RESET (R469). SVC_RESET held low resets both stewards as a module reset. -/
  | serviceReset (p0 p1 : Nat) (alt recover : Bool) (cause : Nat)
  /-- STEWARD_REMOVAL_REQUEST (R431). REQ powers the standby steward down and sets SAFE. -/
  | stewardRemovalRequest (m : Msg)
  /-- STEWARD_SWAP (R431). SWAP exchanges the active and standby steward roles. -/
  | stewardSwap (m : Msg)
  /-- STEWARD_INSERTED (R431). A replacement steward boots, is checked and enters STANDBY or FAILED. -/
  | stewardInserted (f : FwInfo)
  /-- FW_ACTIVATE (R447). ACTIVATE activates a staged firmware image. -/
  | fwActivate (m : Msg) (relayAct : Bool)
  /-- FW_REVERT (R447). REVERT returns a component to its previous image before confirmation. -/
  | fwRevert (m : Msg) (relayAct : Bool)
  /-- FW_CONFIRM (R447). A component runs 10 minutes without fault and its image is copied to the other slot. -/
  | fwConfirm (k : Nat)
  /-- FUSE_OWNER_DIGEST (R449). OP 1 blows the session key digest into the owner fuses. -/
  | fuseOwnerDigest (m : Msg) (confirm : Nat)
  /-- FUSE_DEBUG_LOCK (R449). OP 2 blows the debug lock fuse. -/
  | fuseDebugLock (m : Msg) (confirm : Nat)
  /-- FUSE_ISOLATION (R449). OP 3 blows the isolation fuse. -/
  | fuseIsolation (m : Msg) (confirm : Nat)
  /-- FUSE_COUNTER_ADVANCE (R449). OP 4 advances an anti-rollback counter to the lowest SVN held. -/
  | fuseCounterAdvance (m : Msg) (confirm counter : Nat)
  /-- PRINCIPAL_APPLY (R451). A SEC_PR_CTL write applies a principal table entry. -/
  | principalApply (m : Msg) (v : Word)
  /-- CAL_OPEN (R456). Opens a calibration staging copy. -/
  | calOpen (m : Msg)
  /-- CAL_COMMIT (R456). Checks and commits the staged calibration record to both copies. -/
  | calCommit (m : Msg)
  /-- CAL_ABANDON (R456). Discards calibration staging. -/
  | calAbandon (m : Msg)
  /-- CAL_STAGING_TIMEOUT (R456). Staging is abandoned after 600 s without a write. -/
  | calStagingTimeout
  /-- DHCPV4_AND_SLAAC (R305). The management port takes its addresses from received DHCPv4 replies and router
  advertisements. -/
  | dhcpv4AndSlaac (ip4 : Word) (prefix4 : Nat) (ip6 : List Word)
  /-- ETHERNET_REFERENCE_RETRY (R363). A port whose reference clock failed retries its reference every 100 ms until it
  returns. -/
  | ethernetReferenceRetry (port : Nat) (ok : Bool)
  /-- COMPONENT_RESTART_DONE (R443). A component restarting under activation (standby steward, spool card) finishes
  its restart so the next activation stage can proceed. -/
  | componentRestartDone (k : Nat)
  /-- BOOT_FLASH_RECOVERY (R437). With both stewards FAILED, vendor-signed firmware written through the service
  connector is accepted into the boot flash. -/
  | bootFlashRecovery (head body : List Byte) (sig : Bool)
  /-- PRINCIPAL_BOOTSTRAP (R451). While no valid owner entry exists, owner principal entries are written through the
  service connector. -/
  | principalBootstrap (u : Nat) (mask : BitVec 16) (digest : Nat)
  /-- SVC_PRESENT_CHANGE (R469). The service cable's PRESENT pin changes and the module powers or unpowers SVC_3V3. -/
  | svcPresentChange (present : Bool)
  /-- VCORE_DIGITISE (R388). Every 5 ns each droop sensor digitises VCORE and the region's lowest-value record is
  updated. -/
  | vcoreDigitise (r : Nat) (mv : List Nat)
  deriving DecidableEq, Repr

end Sys2Proof
end

