-- ==== Sys2Proof/Config.lean ====
section
/-!
DEFINITION. The values the spec leaves open. Each is opaque: no proof and no evaluation can see what it is.
Where the spec bounds a value, the meaning that uses it keeps the bound (see `Sys2Proof.Machine.Fp`).
-/
namespace Sys2Proof.Config

/-- Candidate result of VEXP on an FP32 input; used only where it meets the bound of R93. -/
opaque vexp : Word → Word
/-- Candidate result of VRCP; used only where it meets the bound of R93. -/
opaque vrcp : Word → Word
/-- Candidate result of VRSQ; used only where it meets the bound of R93. -/
opaque vrsq : Word → Word
/-- VRSQ of −0: R93 names +0 and negative inputs only. -/
opaque vrsqNegZero : Word
/-- Candidate result of VACT (0 GELU, 1 SiLU); used only where it meets the bound of R93. -/
opaque vact : Nat → Word → Word
/-- VACT of an infinity (sub-operation, input): R93 bounds finite inputs only. -/
opaque vactInf : Nat → Word → Word
/-- Whether VMAX and VMIN of two zeros of unlike sign take the first operand (R95 is silent). -/
opaque maxOfZeros : Word → Word → Bool
/-- Contents of byte i of an overlapping PCPY of the given source, destination and length (R97: undefined). -/
opaque pcpyOverlap : Nat → Nat → Nat → Nat → Byte
/-- ML-DSA-65: whether a signature of a message verifies under a public key, with an empty context (R190, R258). -/
opaque mldsa : List Byte → List Byte → List Byte → Bool
/-- Signature made by the device identity key over a digest. -/
opaque sign : Nat → List Byte
/-- ML-KEM-768: ciphertext of the n-th encapsulation, to a public key. -/
opaque cipherText : Nat → List Byte → List Byte
/-- ML-KEM-768: shared secret of the n-th encapsulation, to a public key. -/
opaque sharedSecret : Nat → List Byte → Nat
/-- ML-KEM-768: the n-th public key the device makes. -/
opaque kemKey : Nat → List Byte
/-- ML-KEM-768: shared secret a ciphertext gives under the device's public key. -/
opaque decapsulate : List Byte → List Byte → Nat
/-- Public half of the device identity key, DPK. -/
opaque deviceKey : List Byte
/-- Module serial number, 128 bits. -/
opaque serial : Nat
/-- Factory values: 0 base MAC address, 1 die stepping. -/
opaque factory : Nat → Nat
/-- First burst, within the working area of every core, of a group's work list (R238: no section gives it). -/
opaque workListBurst : Nat
/-- First burst, within the working area, of the adapter list (R265: fixed by the bit-stream, in no section). -/
opaque adapterListBurst : Nat
/-- First byte, within the KV state area, of a core's mass counters, one word per frame (R242: no section gives it). -/
opaque massOffset : Nat
/-- Candidate softmax weight of a logit against the largest one at a temperature, all as FP32 or BF16 patterns (R285: the spec bounds
no precision; see `Sys2Proof.Machine.softWeight`). -/
opaque softWeight : Nat → Word → Word → Nat
/-- Query heads per layer of the model of a given measurement: they size the references of a state slot (R237), and no
section of a bit-stream gives their number. -/
opaque queryHeads : Nat → Nat
/-- BF16 natural logarithm of the ratio of two weights (R291 LOGP). -/
opaque logRatio : Nat → Nat → Nat
/-- Adapter slots of a configuration digest: R263 bounds them (a multiple of 256, at most 1,024), no section gives them. -/
opaque adaptSlots : Nat → Nat
/-- The B bursts of an adapter image carry the SCALE of their targets in a model (measurements; R262: no section tells
which bursts are compared). -/
opaque adapterScales : Nat → Nat → Bool
/-- A request's residuals, references or page-table entries lie in a burst of a core's KV state area (core, burst,
table index; burst 524,288 stands for any): R237 and R418 act on it, no section gives the placement. -/
opaque holdsState : Nat → Nat → Nat → Bool
/-- Hazard kinds a DBGI section masks, bit n for KIND n (R217: the section's layout is not given). -/
opaque hazardMask : List Byte → Nat
/-- Lane hash of a source interface and a DEST (R172: no section gives the hash). -/
opaque laneHash : Nat → Nat → Nat
/-- The n-th value that the spec leaves open where the part goes on (an elapsed time, a measured quantity). -/
opaque freeValue : Nat → Nat

end Sys2Proof.Config
end

