-- ==== Sys2Proof/Machine/State.lean ====
section
/-!
DEFINITION. The state of the part, as plain data, and its reset values (INVENTORY.md lists each with its rule).
-/
namespace Sys2Proof.Machine

/-- Fields of a class-specific part: offset, bytes, value (R424). -/
abbrev Fields := List (Nat × Nat × Nat)


/-! ### Cores (R75 to R104) -/

/-- What a core is doing: R79 (launch), R90 (END, HALT), R100 (stop at a flagged BARW), R81 (halt). -/
inductive CoreRun where
  | idle      -- no run launched
  | running   -- issuing, or waiting under `Core.wait`
  | ended     -- END completed; idles until the next launch
  | stopped   -- stopped as at END with the run abandoned (R100)
  | halted    -- HALT, an illegal instruction or an I-store check (R81, R90)
  deriving DecidableEq, Repr

/-- What holds the issue stage of a running core (R82). -/
inductive Wait where
  | none
  | endRun                       -- END (R90)
  | eclr                         -- ECLR (R92)
  | ewait                        -- EWAIT
  | barw (bar sr : Nat)          -- BARW: barrier and scalar register
  | waitc (n : Nat)              -- WAITC
  | waitf                        -- WAITF
  | fence (mask : Nat)           -- FENCE
  | twait (cr n : Nat)           -- TWAIT
  | stall (w : DWord)            -- an instruction whose unit is full, short of credit or a drained engine
  deriving DecidableEq, Repr

/-- Loop-stack entry (R75, R86): body bounds, trips that remain after the current one, iteration index. -/
structure LoopEntry where
  first : Nat
  last  : Nat
  trips : Nat
  iter  : Nat
  deriving DecidableEq, Repr

/-- Circular region descriptor (R113). -/
structure Circ where
  base : Nat   -- 18 bits
  size : Nat   -- 18 bits
  head : Nat   -- 21 bits
  tail : Nat   -- 21 bits
  deriving DecidableEq, Repr

/-- What the engine has read of the vector it works on: its activations, its slice exponent and the planes so far, each as 64
row segments (R30, R31). -/
structure EngVec where
  acts   : List Int
  slice  : Int
  planes : List (List Nat)
  deriving DecidableEq, Repr

/-- One issued engine operation in progress (R30, R31, R91). -/
structure EngOp where
  t0     : Nat            -- issue cycle; planes that arrive late move it by the stall (R35)
  b      : Nat            -- weight width
  one    : Bool           -- 1-bit mode (R28)
  fold   : Nat
  wreg   : Nat
  tile   : Nat            -- counter value of the tile's first byte in the W-pad region
  v      : Nat            -- vectors
  aAddr  : Nat            -- A-pad offset of vector 0
  stride : Nat
  pAddr  : Nat            -- P-pad offset of the first output word
  acc    : Bool
  eref   : Int
  rmask  : BitVec 64
  cmask  : BitVec 64
  pc     : Nat
  fs     : List EngFault  -- what its checks meet (R44, R45, R107)
  cur    : EngVec         -- the vector being read
  latched : List (List (Int × Int))   -- per vector wholly read: column value and effective shift of each output (R41)
  written : Nat           -- vectors whose outputs are written
  released : Bool         -- tile space released (R32)
  deriving DecidableEq, Repr

/-- Vault operation kinds (R96). -/
inductive VaultKind where
  | vld | vrd | vwr
  deriving DecidableEq, Repr

/-- A tile assembled in a tile buffer (R124): its W-pad bytes and, when captured, its SCALE halfword. -/
structure TileBuf where
  bytes : List Byte
  scale : Option Nat
  deriving DecidableEq, Repr

/-- One queued vault operation (R96, R97, R123, R124). -/
structure VaultOp where
  kind   : VaultKind
  start  : Nat        -- first burst index
  count  : Nat        -- bursts
  wid    : Nat        -- WID code
  conv   : Nat        -- KIND 0 weight stream, 1 key tile, 2 value tile
  tr     : Bool
  wreg   : Nat
  addr   : Nat        -- VRD, VWR: pad address; VLD: capture address
  cap    : Bool
  tiles  : Nat        -- tiles assembled so far
  nextBurst : Nat     -- bursts decoded so far
  bufs   : List TileBuf   -- assembled, waiting for W-pad room (at most 3)
  paused : Bool
  headAt : Nat        -- cycle at which it reached the head of the queue
  pc     : Nat        -- PC of the instruction
  deriving DecidableEq, Repr

/-- Lattice descriptor (R98). -/
structure LatDesc where
  send  : Bool
  slot  : Nat
  addr  : Nat
  two   : Bool
  pc    : Nat      -- PC of the LSEND or LRECV
  done  : Nat      -- lanes served, as bits
  free  : Nat      -- LRECV: CYCLE from which the descriptor is free, 0 until its last lane is delivered
  deriving DecidableEq, Repr

/-- One lane of an LPUT waiting for its credit slot (R149). -/
structure LputEntry where
  addr : Nat
  lane : Nat
  dir  : Nat
  cr   : Nat
  pc   : Nat      -- PC of the LPUT
  deriving DecidableEq, Repr

/-- A packet TSEND handed to the core's tree interface (R97, R168). -/
structure TreeSend where
  vc   : Nat
  addr : Nat
  len  : Nat      -- payload flits
  sent : Nat      -- flits already taken by the cluster port
  dest : Nat
  grp  : Bool
  red  : Bool
  act  : Bool
  pid  : Nat      -- its number in the tree, from its first flit on
  pc   : Nat      -- PC of the TSEND
  deriving DecidableEq, Repr

/-- A pad write whose landing cycle lies ahead: what its bytes, and their shadow, hold until then (R85, R104, R218). -/
structure PadWrite where
  cells : List (Nat × Byte)   -- core byte address and the byte before the write
  sh    : List (Nat × Byte)   -- A-pad line and its shadow byte before the write
  lands : Nat
  pc    : Nat
  unit  : Nat                 -- unit that writes, coded as UNIT of R218
  deriving DecidableEq, Repr

/-- One core (R75). Physical position is its key in `State.cores`: (16 × region + cluster) × 72 + 9 × row + column. -/
structure Core where
  run      : CoreRun        -- R79, R81, R90; idle
  wait     : Wait           -- R82; none
  istore   : Table DWord    -- 4,096 × 64, R75; 0
  entryIngest : BitVec 12   -- R75; 0
  entrySpin   : BitVec 12   -- R75; 0
  pc       : BitVec 12      -- R75; 0
  loops    : List LoopEntry -- at most 4, innermost first, R86; empty
  s        : Table Word     -- s0 to s31, R75; 0
  a        : Table (BitVec 20) -- a0 to a15, R75; 0
  v        : Table Word     -- v0 to v31, lane l of register r at 16 r + l, R75; 0
  p        : Table (BitVec 16) -- p0 to p7, R75; 0
  sat      : Bool           -- ESTAT, R42, R101; 0
  bxo      : Bool
  par      : Bool
  res      : Bool
  und      : Bool
  wmark    : Nat            -- 6 bits, R66
  unf      : Word           -- R43, R75
  shadow   : Table Byte     -- exponent shadow, 2,048 × 8, R78
  pad      : List Host.Cell -- the pads, by core byte address, R77
  circ     : Table Circ     -- 16 × pad + region (0 W, 1 A, 2 P), R113
  credit   : Table Nat      -- 16 × direction + region, R117
  creditInit : Table Nat    -- compiled initial values, R117
  released : Table Nat      -- bytes released but not returned, per A-pad region, R118
  creditIn : Table (List (Nat × Nat)) -- credit words on the wire toward this core, by direction of arrival, R149
  lputDir  : Table Nat      -- direction + 1 that writes A-pad region n, R117, R206
  inbox1   : BitVec 8       -- VC1 inbox, R206
  inbox2   : BitVec 8       -- VC2 inbox, R206
  routes   : List (BitVec 32) -- send route entries, R205
  router   : List (BitVec 32) -- router entries, R143
  eng      : List EngOp     -- issued engine operations, oldest first, R31
  engFree  : Nat            -- cycle at which the engine accepts its next operation, R31
  engLast  : Nat            -- cycle from which the outputs of every issued operation are readable, R31, R92
  vq       : List VaultOp   -- at most 4, R96
  desc     : List LatDesc   -- at most 16, R98
  lputs    : List LputEntry -- LPUT buffer, R149
  sends    : List TreeSend  -- at most 8, R97
  cycle    : Nat            -- CYCLE, 32 bits where read, R101
  frameStart : Nat          -- CYCLE at which the current slot frame began; FCYC = CYCLE − it, R101
  frameNo  : Nat            -- FRAMENO, R101
  lastFlag : Word           -- LASTFLAG, R101
  score    : Table Nat      -- ready cycle of each register with a result outstanding, R84
  moveFree : Nat            -- cycle at which the movement unit is free, R82, R97
  padWrites : List PadWrite -- R104
  beat     : Bool           -- heartbeat: an instruction issued or waited since the last sample (R413)
  beatAt   : Nat            -- count its region had executed when the bit was last found set (R413)
  dead     : Bool           -- declared dead, R412
  vacant   : Bool           -- no program (CMAP vacant), R198
  deriving DecidableEq, Repr

/-- Error record of one row, for retirement (R133): the bursts found uncorrectable, and those the scrubber corrected or
found uncorrectable, each with the WTIME of its last find. -/
structure RowErr where
  ue : List (Nat × Nat)
  ce : List (Nat × Nat)
  deriving DecidableEq, Repr

/-- One vault (R119 to R134), keyed as its core. -/
structure Vault where
  data   : List Host.Cell  -- stored data byte at 64 × burst + offset, 32 MiB
  chk    : Table Byte      -- stored check symbol XOR the code's, at 8 × burst + i (R120)
  rows   : Table RowErr    -- 8192 × wafer-half … row error records, R133
  retired : Table Nat      -- rows redirected: key row of bank of half, value spare row + 1 (R133)
  spares : Table Nat       -- spare rows used per bank of half (R133)
  wb     : List Nat        -- bursts queued for write-back (R121, R132)
  scrubAt : Nat            -- next burst the scrubber reads (R132)
  scrubDue : Nat           -- WTIME from which it may read it (R132)
  passes : Nat             -- completed scrub passes (R137)
  bad    : List (Nat × Nat) -- uncorrectable or misaddressed bursts of the last second, with WTIME, R134
  lost   : Bool            -- R134
  failing : Bool           -- R134
  refreshRow : Nat         -- next row to refresh, R127
  deriving DecidableEq, Repr

/-! ### Clusters and regions -/

/-- Cluster registers and tables (R46, R137, R150, R162, R184, R223), keyed 16 × region + cluster. -/
structure Cluster where
  engStat  : Word   -- RGN_CL_ENG_STAT, R46
  satCnt   : Word
  bxoCnt   : Word
  unfCnt   : Word
  gate     : Word   -- RGN_CL_ENG_GATE, reset 0x1F
  busy     : Word
  spans    : List (Nat × Nat) -- cycles of the run, from and to, already counted in busy, R46
  vltStat  : Word   -- RGN_CL_VLT_STAT without REFRESH, R137
  vltCe    : Word
  vltUe    : Word
  vltLast  : Word
  scrub    : Word   -- PASSES and PERIOD, reset 0x08
  minSpare : Nat    -- reset 8
  padStat  : Word
  padCe    : Word
  padUe    : Word
  banks    : Word   -- RGN_CL_PAD_BANKS, reset RET = 1
  remap    : Word   -- RGN_CL_LAT_REMAP, reset 0xFFFF_FFFF
  latStat  : Word
  missCnt  : Word
  chkCnt   : Word
  latSat   : Word
  latFlits : Word
  treStat  : Word
  treFlits : Word
  treChk   : Word
  vacant   : BitVec 8   -- RGN_CL_VACANT, R223
  dark     : Bool       -- group dark, R380
  scrubbed : Nat        -- scrub passes every vault of the cluster has completed, R132, R137
  deriving DecidableEq, Repr

/-- A lane word on a lattice link (R139). -/
structure LaneWord where
  data  : List Byte   -- 64 bytes
  sb    : Nat         -- 10-bit sideband
  void  : Bool
  err   : Nat         -- bits of the 531-bit word that differ from what its parity was formed over (R140)
  seen  : Bool        -- its router has checked it
  taken : Bool        -- an entry has taken it
  due   : Nat         -- count at which the receiving entry takes it (R145)
  from_ : Nat         -- sending core
  deriving DecidableEq, Repr

/-- Region clock state (R355 to R363, R373). -/
structure RClk where
  k       : Nat    -- ratio in force, 0 when stopped; R373; 0
  kCap    : Nat    -- R356; 0
  kFloor  : Nat    -- R356; 8
  consec  : Nat    -- consecutive stretched periods, R358; 0
  quiet   : Nat    -- WTIME of the last stretch or ratio change, R359; 0
  stretch : Word   -- RGN_CLK_STRETCH; 0
  stretchNow : Nat -- stretched periods since the region's clock first ran, never cleared (R377); 0
  up      : Nat    -- UP, 16 bits; 0
  down    : Nat    -- DOWN, 16 bits; 0
  minK    : Nat    -- RGN_CLK_MINK; 16
  restartAt : Nat  -- WTIME + 1 of a clock fault awaiting the restart, R363; 0
  stopped : Bool   -- rclk held stopped, R360
  ramp    : Bool   -- start ramp in progress (R360)
  floorHit : Nat   -- WTIME + 1 of the last subkind 3 report (R358); 0
  deriving DecidableEq, Repr

/-- Frame sequence item (R141, R200). -/
structure FrameItem where
  plan : Nat
  gate : Bool
  sel  : Nat
  base : Nat
  mul  : Nat
  deriving DecidableEq, Repr

/-- One region's lattice, tree and schedule state (R142, R155, R163, R184, R201). -/
structure RNet where
  plan    : Nat          -- frame plan now running
  closed  : BitVec 4     -- closed seams N E S W, reset 0xF
  slack   : Nat          -- seam slack S
  hold    : Word         -- RGN_LAT_HOLD
  stalls  : Table Word   -- RGN_LAT_STALL_N, E, S, W
  maxOcc  : Table Nat    -- RGN_LAT_MAXOCC by direction
  held    : Option Nat   -- seam mask holding the region (R155), none when not held
  heldAt  : Nat          -- count before which it holds
  holdNext : Option (Nat × Nat) -- hold found ahead: count and seams (R155)
  count   : Nat          -- count at the start of the current frame (R142)
  exec    : Nat          -- highest count executed
  frameNo : Nat          -- frames since the launch, R101
  fired   : List Nat     -- router entries executed at that count: core × 4096 + entry index
  seqPos  : Nat          -- item of the frame sequence
  seqRep  : Nat          -- repeats of that item already begun
  inFrame : Bool         -- a run's frame is in progress
  gateCnt : Word         -- RGN_BS_GATE
  lateCnt : Word         -- RGN_BS_LATE
  copper  : BitVec 3     -- closed skein copper links
  upA     : Word
  upB     : Word
  vc0Max  : Nat
  hostFlits : Word
  deriving DecidableEq, Repr

/-! ### The express tree (R164 to R184) -/

/-- A flit in the tree (R167): the link it waits to cross, the buffer it fills, and its packet's fields. Nodes are the switches,
10,000 + c for the interface of core c, 20,000 + code for an endpoint, 30,000 + u for the vault service port of cluster u. -/
structure Flit where
  sw    : Nat        -- node its link leads to
  from_ : Nat        -- node that holds it
  prev  : Nat        -- node it came from: with inLane, the input buffer it fills (R171)
  inLane : Nat
  lane  : Nat        -- lane of the link it waits to cross (R172)
  pid   : Nat        -- its packet
  src   : Nat        -- the packet's source: core, endpoint node or vault service port node
  vc    : Nat
  typ   : Nat
  part  : Nat
  len   : Nat        -- payload flits
  idx   : Nat        -- payload index
  tail  : Bool
  dest  : Nat
  grp   : Bool
  act   : Bool
  aux   : Nat        -- vault burst index; type 0 on VC2: RED; waiting for a core: circular region
  shadow : Byte
  sys   : Bool
  seqno : Nat        -- message sequence number of a packet that is acknowledged
  data  : List Byte
  crcErr : Nat       -- CRC as received XOR that of DATA and CTRL as received (R167, R169)
  bad   : Bool       -- it, or a flit combined into it, failed a check on the way (R169)
  deriving DecidableEq, Repr

/-- A packet under way on a lane in one channel: its head has crossed and its tail has not (R170). -/
structure LaneBusy where
  from_ : Nat
  sw    : Nat
  lane  : Nat
  vc    : Nat
  pid   : Nat
  typ   : Nat
  part  : Nat
  deriving DecidableEq, Repr

/-- The way a packet takes through a node, fixed by its head as received (R167, R180). -/
structure TreePath where
  sw   : Nat
  head : Flit
  outs : List Nat
  deriving DecidableEq, Repr

/-- A packet of types 4 to 6 that an endpoint is receiving (R168, R169). -/
structure PortPacket where
  node : Nat
  pid  : Nat
  lines : List (List Byte)
  bad  : Bool
  deriving DecidableEq, Repr

/-- A group entry of one switch (R175, R205). -/
structure GroupEntry where
  part  : Nat
  sw    : Nat
  group : Nat
  k     : Nat
  lane  : Nat
  out   : Nat        -- output set bits
  cr    : Nat        -- cluster port: A-pad circular region
  cores : BitVec 64  -- cluster port: receiving logical cores
  deriving DecidableEq, Repr

/-- A reduction in progress at a switch (R176). -/
structure RedSlot where
  sw    : Nat
  part  : Nat
  group : Nat
  idx   : Nat
  got   : Nat
  sum   : List Word
  bad   : Bool       -- a contribution failed a check (R169)
  deriving DecidableEq, Repr

/-- Barrier arrivals combined at a switch (R178). -/
structure BarSlot where
  sw    : Nat
  part  : Nat
  bar   : Nat
  got   : Nat
  sat   : Bool
  bxo   : Bool
  w     : Nat
  bad   : Bool       -- an arrival failed a check (R169)
  deriving DecidableEq, Repr

/-- A barrier arrival on its way to a switch (R178). -/
structure BarMsg where
  sw    : Nat
  from_ : Nat        -- node it comes from
  part  : Nat
  bar   : Nat
  sat   : Bool
  bxo   : Bool
  w     : Nat
  bad   : Bool       -- an arrival failed a check (R169)
  deriving DecidableEq, Repr

/-- A barrier release not yet consumed by a core's BARW (R99, R178). -/
structure BarRel where
  core  : Nat
  bar   : Nat
  flag  : Word
  bad   : Bool
  deriving DecidableEq, Repr

/-- A packet that is acknowledged end to end, with its payload, until its ACK comes (R177). -/
structure AckWait where
  src    : Nat     -- node of its sender
  typ    : Nat
  vc     : Nat
  dest   : Nat
  part   : Nat
  sys    : Bool
  aux    : Nat
  lines  : List (List Byte)
  seqno  : Nat
  sends  : Nat     -- resends made
  due    : Nat     -- WTIME at which 20 µs have passed
  deriving DecidableEq, Repr

/-- The tree (R164 to R184). -/
structure Tree where
  flits   : List Flit       -- waiting to cross a link, oldest first, R167, R171
  busy    : List LaneBusy   -- packets under way on the lanes, R170
  paths   : List TreePath   -- outputs of the packets under way through the nodes, R174, R180
  asm     : List PortPacket -- packets the endpoints are receiving, R168, R169
  groups  : List GroupEntry -- group tables, R175
  reds    : List RedSlot    -- reductions in progress, R176
  bars    : List BarSlot    -- barriers combined in part, R178
  barMsgs : List BarMsg     -- barrier arrivals on their way, R178
  rels    : List BarRel     -- barrier releases not yet consumed, R178
  acks    : List AckWait    -- packets without an ACK yet, R177
  failed  : List AckWait    -- given up after three resends, as their senders have been told (R177)
  ackIn   : List Nat        -- sequence numbers of ACKs at their senders' interfaces, R177
  seen    : List (Nat × Nat) -- endpoint and sequence number of the EMSGs received (R177)
  deliver : List Flit       -- at a cluster port, waiting to enter a pad (R115)
  hosts   : Table Nat       -- hosted switch → 1 ordered out of service, 2 dark; absent in service, R180
  nextSeq : Nat             -- sequence number of the latest message, R168
  nextPid : Nat             -- packets sent, numbered so that a lane keeps one whole, R170
  deriving DecidableEq, Repr

/-! ### Events (R422 to R427, R433) -/

/-- An event record (R423). The SEQ is given when it enters the ring. -/
structure EvRec where
  seq     : Nat
  cls     : Nat
  kind    : Nat      -- 0 detail, 1 squall
  region  : Nat      -- 0 to 63, 255 for the wafer edge
  cluster : Nat
  wtime   : Nat
  part    : Nat
  core    : Nat
  lx      : Nat
  ly      : Nat
  step    : Nat
  reqid   : Nat
  spec    : Fields   -- the 32-byte class-specific part as (offset, bytes, value)
  acked   : Bool     -- freed by EVT_ACK, never persisted (R425)
  deriving DecidableEq, Repr

/-- A pending squall (R426). -/
structure Squall where
  dropped : Nat
  first   : Nat
  last    : Nat
  deriving DecidableEq, Repr

/-- Defect map entry (R409): 16 bytes as four words. -/
structure Slub where
  w0 : Word
  w1 : Word
  w2 : Word
  w3 : Word
  deriving DecidableEq, Repr

/-- Event ring, counts, queues and defect map (R408 to R411, R422 to R427, R433). -/
structure Evts where
  counts  : Table Nat       -- 64-bit count per class
  ring    : List EvRec      -- records held, oldest first, at most 4,096
  head    : Nat             -- EVT_HEAD
  persist : Nat             -- EVT_PERSIST
  ack     : Nat             -- EVT_ACK
  rate    : Nat             -- EVT_RATE, reset 16
  mask    : BitVec 64       -- EVT_MASK
  queues  : Table (List EvRec)  -- region agents' queues, at most 64 each
  edge    : List EvRec      -- edge queue, at most 256
  squalls : Table Squall    -- by class
  slubs   : List Slub       -- defect map, at most 262,144
  saved   : List EvRec      -- records persisted to the spool (R336, R427)
  batchAt : Nat             -- WTIME + 1 of the last batch persisted, 0 none, R427
  deriving DecidableEq, Repr

/-! ### Partitions (R185 to R223, R224 to R274) -/

/-- A section of a loaded configuration: the steward's copy (R188, R189, R416). -/
structure Section where
  typ   : Nat
  alt   : Nat      -- 0 primary, 1 to 4 the standby pairing it belongs to
  bytes : List Byte
  deriving DecidableEq, Repr

/-- An entry of the exponent table, from PREC (R55, R67 to R70, R208). -/
structure ExpEntry where
  layer : Nat
  group : Nat
  wid   : Nat
  mxf   : Nat
  nm1   : Nat
  emax  : Int
  comp  : Int      -- compiled e_ref
  cur   : Int      -- e_ref in force
  quiet : Nat      -- consecutive committed steps with W ≤ 28
  wNow  : Nat      -- largest W reported for the group in the current run
  hit   : Bool     -- its flag word of the current run has been acted on (R67)
  flagged : Bool   -- raised a flag in a run of the current step (R68)
  eSeen : Nat      -- highest slice exponent seen in runs 0 to 2 of the step (R69)
  deriving DecidableEq, Repr

/-- Unit of a model image (R256). -/
structure WUnit where
  kind  : Nat
  index : Nat
  wid   : Nat
  base  : Nat
  len   : Nat
  erefs : List Int
  off   : Nat
  size  : Nat      -- segment bytes
  digest : Nat
  deriving DecidableEq, Repr

/-- Entry of the layer pointer table (R267): a unit, its slot as an absolute first burst, and its compiled e_refs. -/
structure PtrEntry where
  kind  : Nat
  index : Nat
  base  : Nat
  len   : Nat
  erefs : List Int
  image : Nat      -- measurement of the image its contents come from
  wid   : Nat      -- weight width
  home  : Nat      -- SLOT_BASE as loaded
  deriving DecidableEq, Repr

/-- Doff in progress (R269, R270); `state` as DOFF of SRV_P_WT_STAT. -/
structure Doff where
  state : Nat      -- 0 idle, 1 staging, 2 awaiting switch, 3 in-place holding, 4 in-place staging again
  inPlace : Bool
  image : Nat      -- measurement
  units : List WUnit
  dst   : List Nat -- staging slot of each unit
  done  : Nat
  data  : List Byte -- in place: the image, whose slices are staged in the vaults of the spare cores (R270)
  again : List Nat -- rows (8 × cluster + row) whose slices are to be staged again (R271)
  deriving DecidableEq, Repr

/-- Adapter slot (R264): 0 FREE, 1 LOADING, 2 READY, 3 RETIRING. -/
structure AdaptSlot where
  state : Nat
  image : Nat      -- measurement of its image, 0 none
  deriving DecidableEq, Repr

/-- Tuning request (R266). -/
structure TuneReq where
  slot  : Nat
  steps : Nat
  reqs  : List Nat
  deriving DecidableEq, Repr

/-- A request's share of the step in flight: its table index, positions, and ingest span. -/
structure BatchItem where
  idx : Nat
  w   : Nat        -- positions (spin: w_r; ingest: positions taken)
  pos : Nat        -- first position
  deriving DecidableEq, Repr

/-- What has become of the run in flight; `lists`: it waits for its lists (R238, R265). -/
inductive RunPhase where
  | none | lists | running | replay | fault | frozen
  deriving DecidableEq, Repr

/-- Repair in progress in a partition (R416 to R418). -/
structure Repair where
  since : Nat              -- WTIME of the declaration
  dead  : List (Nat × Nat × Bool) -- physical core, cause of R409, vault lost
  stage : Nat              -- 0 declared, 1 frozen and copying, 2 restoring vaults
  copied : Nat             -- cores of `dead` whose row has been copied
  deriving DecidableEq, Repr

/-- Partition states, in the order of their codes in SRV_P_BS_STAT (R223). -/
inductive PartState where
  | empty | receiving | verifying | loading | ready | applying | down | unloading
  deriving DecidableEq, Repr

/-- One partition (R17, R74, R223, R253, R274, R303, R393, R407, R435). -/
structure Part where
  -- configuration (R192 to R223)
  state  : PartState    -- STATE of SRV_P_BS_STAT, R223; EMPTY
  last   : Nat          -- LAST_STATUS, 8 bits; R223; 0
  alt    : Nat          -- standby pairing in force, 0 none; R212, R223; 0
  signed : Bool         -- R223; 0
  debug  : Bool         -- R217, R223; 0
  row0   : Nat          -- R223; 0
  col0   : Nat          -- R223; 0
  rows   : Nat          -- R223; 1 (ROWSM1 0)
  cols   : Nat          -- R223; 1 (COLSM1 0)
  errCheck : Nat        -- R223; 0
  errType : Nat         -- R223; 0
  lateCnt : Word        -- SRV_P_BS_LATECNT, R223; 0
  wdogCnt : Word        -- SRV_P_BS_WDOGCNT, R223; 0
  digest : Nat          -- configuration digest, 512 bits, R223; 0
  signer : Nat          -- digest of the embedded key or 0, R190; 0
  model  : Nat          -- MODEL_DIGEST, R187; 0
  mins   : List Nat     -- MIN_STEWARD, MIN_AGENT, MIN_VAULT, R187, R446; empty
  defect : Nat          -- DEFECT_DIGEST, R187; 0
  cfg    : List Section -- loaded sections, R416; empty
  tune   : List Section -- tuning sections, R249; empty
  tuneDigest : Nat      -- R249; 0
  tuned  : Bool         -- tuning sections are applied, R249; 0
  applying : Nat        -- what APPLYING writes: 1 a partial container, 2 tuning or 3 serving sections; 0 not in APPLYING, R220, R249; 0
  placed : Bool         -- steps 2 to 5 of R194 have run; 0
  pend   : List Section -- verified partial container awaiting APPLYING, R220; empty
  pendDigest : Nat      -- R220; 0
  pendSig : Nat         -- its signer, 0 unsigned; R190, R220; 0
  standby : List Nat    -- reserved standby regions, R212; empty
  -- formats (R67 to R74)
  exps   : List ExpEntry -- exponent table, R55, R208; empty
  fSat   : Bool         -- SAT of SRV_P_FMT_STAT, R74; 0
  fBxo   : Bool         -- R74; 0
  fFall  : Bool         -- FALLBACK, R74; 0
  fGroup : Nat          -- LAST_GROUP, R74; 0
  fLayer : Nat          -- LAST_LAYER, R74; 0
  fMark  : Nat          -- LAST_WMARK, R74; 0
  replays : Word        -- R74; 0
  fallbacks : Word      -- R74; 0
  decayEn : Bool        -- R74; 1
  erefPend : Bool       -- EREF_RESET ordered, R74; 0
  -- KV (R224 to R253)
  kvEvict : Word        -- R253; 0
  kvLost  : Word        -- R253; 0
  kvClamp : Word        -- R253; 0
  kvZero  : Word        -- R253; 0
  kvRounds : Nat        -- R253; 0
  kvLoad  : Nat         -- R253; 0
  kvDefer : Word        -- R253; 0
  chosen : List (Nat × Nat) -- frames (F, G) chosen by cell since the latest launch, R241; []
  kvResend : Word       -- R253; 0
  again    : Nat        -- re-shard half-slices to be moved again in the next step, R251
  -- weights (R254 to R274)
  epoch  : Nat          -- 8 bits, R267; 0
  ptrs   : List PtrEntry -- active copy, R267; empty
  ptrsB  : List PtrEntry -- inactive copy, R267; empty
  oldLive : Bool        -- R268, R274; 0
  mixed  : Bool         -- R270, R274; 0
  restore : Bool        -- R261, R274; 0
  doff   : Doff         -- R269, R270, R274; idle
  doffWait : List (Nat × Bool) -- doffs ordered meanwhile: measurement, in place; R272; empty
  doffCnt : Word        -- R274; 0
  wtDigest : Nat        -- SRV_P_WT_DIGEST, R274; 0
  adapt  : Table AdaptSlot -- R264; all FREE
  tuneSlot : Option Nat -- R266; none
  tunes  : List TuneReq -- R266; empty
  -- scheduling (R282 to R303)
  sched  : Word         -- SRV_P_SCHED, R303; 0x0001_0404
  spool  : Word         -- SRV_P_SPOOL, R303; KV_TTL 0xE10, PAUSE_DWELL 0x7D0
  waits  : Word         -- SRV_P_WAITS, R303; 0x03E8_0064
  tokens : Word         -- SRV_P_TOKENS, R303; 0
  specAcc : Nat         -- ACCEPTED, 16 bits, R303; 0
  specProp : Nat        -- PROPOSED, R303; 0
  stops  : Nat          -- STOPS, R303; 0
  narrowed : Nat        -- NARROWED, R303; 0
  held   : Nat          -- REASON of SRV_P_STAT: 0 none, 1 repair, 2 heat, 3 APPLYING, 4 doff barrier; R300, R303; 0
  step   : Nat          -- step number of the last launch, R293; 0
  batch  : Nat          -- BATCH of the last step, R303; 0
  batchReqs : Nat       -- requests in the last step, R303; 0
  ingest : Bool         -- LAST_INGEST, R303; 0
  spins  : Nat          -- spins since the last ingest turn, R282; 0
  tuneTurn : Bool       -- last ingest turn was a tuning turn, R282; 0
  -- the step in flight (R67, R71, R79, R267, R412 to R414)
  phase  : RunPhase     -- none
  items  : List BatchItem -- the step batch; empty
  tuneRun : Nat         -- 0 serving, 1 tuning forward, 2 tuning backward
  runNo  : Nat          -- 0 to 3, R68; 0
  act8   : Bool         -- the run is on the 8-bit activation path, R68; 0
  reruns : Nat          -- fault re-runs of the step, R414; 0
  wdogs  : Nat          -- consecutive watchdogs of the step, R414; 0
  kvPages : Nat         -- pages of the step batch, R141; 0
  stepEpoch : Nat       -- epoch stamped at launch, R267; 0
  faults : List (Nat × Nat) -- fault classes of the run with the logical position 256 y + x, 65,536 none; R108, R412
  freezeAt : Option Nat -- frame at which the partition freezes, R160; none
  ranAt  : Nat          -- WTIME of the run's launch, R203; 0
  hazMask : Word        -- hazard kinds masked by DBGI, R217; 0
  bad    : List (Nat × Nat) -- uncorrectable bursts found and not yet dealt with: core, burst; R122, R415; empty
  strikes : Table (List (Nat × Nat)) -- (kind, WTIME) by logical position, R412; empty
  -- repair (R412 to R421, R435)
  repair : Option Repair -- R416; none
  downCause : Nat       -- R419, R435; 0
  repRegion : Nat       -- R435; 0
  repCluster : Nat      -- R435; 0
  repCore : Nat         -- R435; 0
  repOrigin : Nat       -- R435; 0
  repVault : Bool       -- R435; 0
  repReruns : Nat       -- R435; 0
  repairs : Nat         -- R435; 0
  repLast : Nat         -- R435; 0
  repMax : Nat          -- R435; 0
  -- power and thermal shares (R381, R398)
  powW   : Nat          -- measured power of the partition, W; R393; 0
  powCap : Nat          -- POWER_CAP in units of 100 W, from CLKL; R210; 0
  powLull : Word        -- PWR_P_LULL, R393; 0
  lullShare : Nat       -- DUTY: power-cap lull share in 1/256, R381, R393; 0
  lullNeed : Nat        -- launch delay owed: lull shortfall of the last run in ps, R381; 0
  thmShare : Nat        -- SHARE: thermal share in 1/32, R398, R407; 0
  energy : Nat          -- charged energy since load in 10 µJ; PWR_P_ENERGY shows kJ, R393; 0
  returnReq : Bool      -- RETURN ordered, R387, R393; 0
  deriving DecidableEq, Repr

/-! ### Requests and tenants (R275 to R303) -/

/-- A chunk record (R291). -/
structure Chunk where
  (seq step pos count epoch flags status : Nat)
  tokens : List Nat
  logp : List Nat
  deriving DecidableEq, Repr

/-- A page table entry (R237): STATE 0 unused, 1 spin, 2 ingest, 3 evicted, 4 spooled, 5 lost. -/
structure Page where
  (f g state : Nat)
  pin : Bool
  fill : Nat       -- committed positions, 0 to 64
  deriving DecidableEq, Repr

/-- Request states, in the order of their codes (R280). -/
inductive ReqState where
  | queued | ingest | spin | held | paused | spooled | done | failed | cancelled
  deriving DecidableEq, Repr

/-- A request table entry (R275 to R299). -/
structure Request where
  gen    : Nat         -- generation of the ID, R275; 1
  used   : Bool        -- entry in use
  state  : ReqState    -- R280
  before : ReqState    -- state before HELD, R281
  par    : ReqParam
  hist   : List Nat    -- history: prompt, committed and appended tokens, R299
  turnLen : Nat        -- PROMPT_LEN or APPEND_LEN of the turn
  turnGot : Nat        -- of them received, R326
  lastBlock : Nat      -- WTIME of the last prompt block, R276
  committed : Nat      -- positions whose KV is committed, R241
  positions : Nat      -- POSITIONS, R477
  newTok : Nat         -- tokens of the current turn, R288
  owner  : Nat         -- owning session, 0 none, R292
  chunks : List Chunk  -- the last 256, oldest first, R293
  nextSeq : Nat        -- next chunk SEQ
  pausePend : Bool     -- R295
  reshard : Bool       -- in re-shard, R247
  reingest : Bool      -- the next chunk carries REINGEST, R291
  pages  : List Page   -- page table, R237
  target : List (Nat × Nat) -- frames (F, G) taken for a re-shard or a spool-in, in page order, R241, R247
  shardLeft : Nat      -- steps its re-shard still takes, R247
  slot   : Bool        -- holds a state slot, R237
  resid  : Table (List Word) -- committed residual vectors, R64, R65
  rho    : Table Word  -- references, key 256 × layer + head, R230, R233
  order  : Nat         -- admission order, R283
  lastStep : Nat       -- last step it was in, R284
  kvExpired : Bool     -- R297
  histLost : Bool      -- R337
  pausedAt : Nat       -- WTIME of the pause, R296
  idleSince : Nat      -- WTIME it entered PAUSED or SPOOLED, R297
  endedAt : Nat        -- WTIME it ended, R281
  waitSince : Option Nat -- WTIME a shortage wait began, R294
  spooling : Option Nat -- card of a spool-out in progress, R296
  spoolingIn : Bool    -- spool-in in progress, R298
  kvCard : Option Nat  -- card of its KV record, R296
  kvModel : Nat        -- tags of the record, R296
  kvPage : Nat
  durableAt : Nat      -- R297
  boundSlot : Bool     -- was bound to its adapter slot before a retire order, R264
  cancelPend : Bool    -- cancelled while in a step, R301
  lastNew : Bool       -- the last step ingested its last block
  retryAt : Nat        -- WTIME of the next spool-out attempt after a refused one, 0 none, R296
  deriving DecidableEq, Repr

/-- A tenant (R289, R290, R303, R340). -/
structure Tenant where
  admitOk  : Bool    -- 1
  limit  : Bool    -- 0
  reject : Bool    -- 0
  promptWt : Nat   -- 8 bits, 32
  rate   : Nat     -- 24 bits, 0
  depth  : Nat     -- 32 bits, 0
  maxReq : Nat     -- 18 bits, 0
  level  : Int     -- units of 1/256 token, 0
  used   : Word    -- RC, 0
  frac   : Nat     -- remainder of the refill, in 1/256,000 token
  deriving DecidableEq, Repr

/-- The serving engine (R275 to R303). -/
structure Serving where
  reqs    : Table Request -- 131,072 entries
  parked  : Table Request -- requests a start restores from the spool, R442
  tenants : Table Tenant  -- 4,096
  histTtl : Nat           -- hours, 0xA8, R303
  resultTtl : Nat         -- seconds, 0x3C, R303
  order   : Nat           -- admissions so far
  deriving DecidableEq, Repr

/-! ### Sessions (R310 to R331) -/

/-- A message the device has sent and the peer has not acknowledged (R315). -/
structure OutMsg where
  (seq cls typ : Nat)
  (reply more : Bool)
  (corr status part : Nat)
  body : List Byte
  sends : Nat      -- resends made
  first : Nat      -- WTIME of the first send
  due   : Nat      -- WTIME of the next resend
  sent  : Bool     -- within the window (R316)
  deriving DecidableEq, Repr

/-- An open session (R315 to R322, R461, R464). -/
structure Session where
  role   : Nat          -- 0 tenant, 1 operator, 2 owner
  tenant : Nat
  digest : Nat          -- digest of the host key, R319, R449
  pmask  : BitVec 16    -- partitions it may use under isolation, R453
  idle   : Nat          -- granted seconds, R321
  iface  : Nat          -- interface of the last authenticated datagram, R322
  addr   : Nat          -- its source address and UDP port, R322
  rcvd   : Nat          -- ACK: highest SEQ received in order, R312
  ahead  : List (Nat × Nat × Nat) -- messages held out of order: SEQ, CLASS, TYPE
  ready  : List (Nat × Nat × Nat) -- received in order, not yet processed
  nextOut : Nat         -- next SEQ to send
  tx     : List OutMsg  -- unacknowledged, oldest first
  peerWin : Nat         -- peer WINDOW
  cwnd   : Nat          -- 64 at the start, R316
  acked  : Nat          -- acknowledgements toward the next rise
  halved : Nat          -- WTIME of the last halving
  ece    : Bool         -- set ECE in the next datagram
  lastRx : Nat          -- WTIME of the last datagram, R320
  keyph  : Bool         -- key phase, R320
  key    : Nat          -- key material of the phase, R318
  oldKey : Option (Nat × Nat) -- old phase and the WTIME it ends
  xmit   : Nat          -- datagrams sent in the phase
  rekeying : Option (List Byte) -- EK of the device's own REKEY while it is unanswered, R320
  sel    : Table Nat    -- selector registers, by address, R461
  latch  : Table Word   -- latched HI words, by address, R461
  telMs  : Nat          -- telemetry period, 0 off, R464
  telKinds : Nat
  telLast : Table Nat   -- WTIME of the last record of each kind
  evts   : BitVec 64    -- subscribed event classes, R323
  deriving DecidableEq, Repr

/-- A half-open handshake (R317). -/
structure HalfOpen where
  hnonce : Nat
  ses    : Nat
  (role tenant idle : Nat)
  ss     : Nat      -- ML-KEM shared secret
  th     : Nat      -- transcript TH2
  at_    : Nat      -- WTIME of CHALLENGE
  deriving DecidableEq, Repr

/-- Interface configuration (R305, R333). -/
structure Iface where
  ip4  : Word
  en   : Bool
  dhcp : Bool
  prefix4 : Nat
  ip6  : List Word
  tag  : Bool
  vid  : Nat
  man4 : Bool   -- its IPv4 address is written, not leased
  man6 : Bool   -- its IPv6 address is written
  deriving DecidableEq, Repr

/-- A relayed firmware image on its way along the chain (R329). -/
structure Relay where
  from_ : Nat      -- 0 port A, 1 port B
  hops  : Nat
  xfer  : Nat      -- transfer that stores it
  sent  : Nat      -- 0 header not yet passed, 1 started toward the neighbour, 2 done
  deriving DecidableEq, Repr

/-- The Ethernet ports and the session layer (R304 to R333). -/
structure Eth where
  cfg     : Word           -- ETH_CFG, 0x0003_0000
  link    : BitVec 17      -- ETH_LINK, 0
  bypass  : Bool           -- STATE, 1
  force   : Nat            -- 0
  oeReady : BitVec 2       -- OE_A, OE_B ready, 0
  present : BitVec 2       -- 0
  safe    : BitVec 2       -- 0
  req     : BitVec 2       -- 0
  oeGood  : BitVec 2       -- inserted engine passed its firmware check, R308
  ifs     : Table Iface    -- 17
  pcp     : Word           -- 0x0E49_5C76
  ptp     : Word           -- ETH_PTP_CFG, 0x0000_0140
  sessCfg : Nat            -- IDLE_DEF, 30
  retx    : Word
  drop    : Word
  fwd     : Word
  mismatch : Bool          -- forwarding stopped by unlike modes, R309
  sessions : Table (Option Session)
  half    : List HalfOpen  -- at most 64
  hsOut   : List (Nat × Nat × Nat) -- messages sent outside sessions: TYPE, SESSION, STATUS, R317
  paused  : Table Nat      -- interface × 8 + priority → 1 while the peer has paused it, R316
  neigh   : Table Nat      -- port 0 A, 1 B → serial learned from HELLO plus 1, 0 none, R329
  relays  : List Relay
  relayOut : List (Nat × Nat) -- RLY messages sent: (port, TYPE), R329
  hellos  : Nat            -- HELLO rounds sent
  helloAt : Nat            -- WTIME of the last, R329
  egress  : Table Nat      -- frames queued per interface × 8 + priority, R316
  rx      : List (Nat × Nat × Nat × Nat) -- receive buffer: session, SEQ, priority, bytes of messages held, R316
  xoff    : BitVec 8       -- XOFF sent per priority
  answers : Word           -- ARP, neighbour discovery and echo answers sent, R305
  deriving DecidableEq, Repr

/-- An image, bit-stream or firmware transfer (R191, R328). -/
structure Xfer where
  id     : Nat
  ses    : Nat       -- owning session, 0 relay
  kind   : Nat       -- 0 bit-stream, 1 model, 2 firmware, 3 adapter, 4 DOFF
  target : Nat       -- 0 partition, 1 spool, 2 device
  part   : Nat
  slot   : Nat
  hops   : Nat
  total  : Nat
  data   : Table (Option Byte) -- staged bytes
  headOk : Bool      -- head passed steps 1 to 6
  verified : Bool    -- PHASE 1 reached, R328
  holds  : Bool      -- it has reserved its partition or adapter slot, R192
  last   : Nat       -- WTIME of the last block
  deriving DecidableEq, Repr

/-! ### Spool (R334 to R352) -/

/-- Kinds of stored object (R336, R338). -/
inductive ObjKind where
  | bitstream | model | doff | adapter | history | kv | events
  deriving DecidableEq, Repr

/-- A stored object (R336 to R340). `cards`: bit c for a durable copy on card c. -/
structure SpoolObj where
  id     : Nat        -- object identifier
  kind   : ObjKind
  digest : Nat        -- configuration digest or measurement; request index for histories and KV records
  cards  : Nat
  size   : Nat        -- bytes
  data   : List Byte  -- contents of containers and images
  tenant : Nat        -- key owner
  gen    : Nat        -- key generation it is encrypted under
  stored : Nat        -- WTIME it became durable
  lastRead : Nat
  expires : Nat       -- KV records: WTIME of the end of KV_TTL
  cur    : Nat        -- contents version, for the comparison of R348
  deriving DecidableEq, Repr

/-- A spool card (R335, R344 to R352). -/
structure Card where
  state  : Nat     -- 0 absent … 7 SAFE
  present : Bool
  degraded : Bool
  busy   : Bool
  lost   : Bool    -- W1C
  overdrawn : Bool -- W1C
  req    : Bool
  rate0  : Nat     -- MB/s
  rate   : Nat
  level  : Int     -- bytes; SPL_C_LEVEL shows MB
  aX100  : Nat     -- reset 0xD2
  sparePct : Nat
  peMean : Nat
  ceCnt  : Word
  ueCnt  : Word
  over_  : Nat     -- bytes written at the floor; SPL_C_OVER shows MB
  version : Nat    -- running firmware
  held    : List (Nat × Nat) -- objects (identifier, contents version) it held as it left service, R348
  service : Nat    -- powered seconds, R345
  retired : List Nat -- retired blocks, R344
  scrubbed : Nat   -- blocks read in the present scrub period, R343
  tier4  : Table Nat -- block → WTIME + 1 of the last tier 4 read, R344
  sent   : Nat     -- bytes received since the card was made, R345
  since  : Nat     -- WTIME up to which its rebuild has been followed, R348
  copied : Nat     -- bytes its rebuild has copied
  deriving DecidableEq, Repr

/-- The spool (R334 to R352). -/
structure Spool where
  govEn  : Bool   -- 1
  lifeY  : Nat    -- 7
  scrubDays : Nat -- 7
  cards  : Table Card
  objs   : List SpoolObj
  gens   : Table Nat -- GEN of each tenant, 31 bits
  nextId : Nat
  deriving DecidableEq, Repr

/-! ### Clocks (R353 to R373) -/

/-- Device clocks, WTIME and alignment (R353, R364 to R373). -/
structure Clk where
  wtime  : Nat        -- 64 bits, R364; 0
  checkpoint : Nat    -- last WTIME checkpoint in the boot flash, R365
  rootLock : Bool     -- R373; 0
  refOk  : Bool       -- 0
  selfRefresh : Bool  -- 0
  mclkFallback : Bool -- 0
  domFault : BitVec 72 -- CLK_DOM_FAULT; 0
  lastFault : Table Nat -- region → WTIME + 1 of its last rclk fault, R363
  lockTries : Nat     -- lock retries made, R363
  lockAt : Nat        -- WTIME of the last, R363
  alnSrc : Nat        -- CLK_ALN_CFG.SRC; 0
  alnState : Nat      -- 0 FREE … 3 HOLDOVER
  alnSeq : Word
  alnW0  : Nat
  alnT0s : Nat        -- 48 bits
  alnT0ns : Nat
  alnRate : Int
  alnOfs : Int
  alnGood : Nat       -- consecutive exchanges below 100 ns
  alnLast : Nat       -- WTIME of the last valid exchange or edge
  alnFirst : Option Nat -- WTIME of the exchange a RATE estimate starts from
  ppsTod : Nat        -- CLK_PPS_TOD
  ethRetry : BitVec 2 -- ports whose reference failed, R363
  deriving DecidableEq, Repr

/-! ### Power (R374 to R393) -/

/-- One 48 V feed (R374, R375). -/
structure Feed where
  on    : Bool    -- carries load
  ok    : Bool    -- in range
  volt  : Nat     -- 10 mV
  cur   : Nat     -- 0.1 A
  req   : Bool
  safe  : Bool
  deriving DecidableEq, Repr

/-- A sharing group (R379, R380, R389, R393). -/
structure Group where
  ok    : BitVec 4   -- regulators in service; 0xF
  fails : Table Nat  -- start checks failed, by regulator
  limit : Nat        -- 24
  dark  : Bool
  crack : Bool       -- W1C
  cur   : Nat        -- 10 mA
  peak  : Nat        -- RC
  now   : Nat        -- µΩ
  meas  : List Nat   -- last measurements, at most 16, R389
  flagged : Bool     -- class 0x25 raised since the flag was last cleared
  deriving DecidableEq, Repr

/-- A region power-on in progress (R384). -/
structure PowerOn where
  region : Nat
  since  : Nat     -- WTIME of the request
  fromOff : Bool
  stage  : Nat     -- 0 waiting for admission, 1 ramping, 2 checking (R385)
  last   : Nat     -- WTIME + 1 of the last refusal, or WTIME at which the stage began
  deriving DecidableEq, Repr

/-- One 10 µs measurement, as kept for the 1 ms means (R381, R390). -/
structure Meas where
  pin    : Nat        -- W
  zones  : List Nat   -- VIN current by skein zone, 0.1 A
  groups : List Nat   -- VCORE current by group, 10 mA
  charge : List Nat   -- charged power by partition, W
  deriving DecidableEq, Repr

/-- Module power (R374 to R393). -/
structure Power where
  feedA  : Feed
  feedB  : Feed
  pin    : Nat       -- 1 ms mean of P_in, W
  peak   : Nat       -- RC
  energy : Nat       -- in 10 µJ, since power-on; the register shows J
  window : List Meas -- measurements of the last 1 ms, newest first, at most 100
  groups : Table Group
  ons    : List PowerOn
  zoneVin : Table Nat -- 0.1 A by skein zone
  vvault : Table Nat -- VVAULT current, 10 mA, by region
  deriving DecidableEq, Repr

/-- A lull that holds a current at a limit: num ÷ den of a frame at the ratio in force, falling by dyn for the whole
dynamic current (R380). -/
structure Lull where
  (num den dyn : Nat)
  deriving DecidableEq, Repr

/-- A region's power state (R377, R378, R383 to R388, R393). -/
structure RPower where
  state  : Nat     -- 0 OFF, 1 RETAIN, 2 IDLE, 3 RUN, 4 ramping
  setpt  : Nat     -- mV
  marginal : Bool
  highSince : Option Nat -- WTIME subkind 3 first raised at 0.85 V, R378
  vmin   : Nat     -- mV; 0x3FF
  vminCl : Nat
  vminAt : Nat     -- WTIME of the minimum
  lull   : Word    -- RGN_PWR_LULL
  cause  : Nat     -- RGN_PWR_GUST
  tries  : Nat
  quiet  : Nat     -- consecutive trim windows with no stretch, R377
  trimBase : Nat   -- RGN_CLK_STRETCH total at the last trim window
  watts  : Nat     -- input-referred power
  gust   : Lull    -- pre-emptive lull in force, R384; none
  gustAt : List Nat -- its caps: each cluster's current at admission in 10 mA; empty
  vcore  : Nat     -- lowest VCORE of the latest sample, mV, R388
  vcoreCl : Nat    -- its cluster
  forced : Lull    -- forced lull in force, R380; none
  deriving DecidableEq, Repr

/-! ### Thermal (R394 to R407) -/

/-- A region's thermal state (R394 to R404, R407). -/
structure RTherm where
  logic  : Int     -- effective, 1/16 °C
  dram   : Int
  lDis   : Bool
  dDis   : Bool
  lBroken : Bool
  dBroken : Bool
  lDisN  : Nat     -- consecutive sweeps in disagreement
  dDisN  : Nat
  warn   : Bool    -- 95 °C warning in force
  lulls  : Bool    -- 100 °C action in force
  hot    : Bool    -- 110 °C (or 95 °C DRAM) stop ordered
  refresh : Nat    -- refresh mode 0 to 2, R127
  coolN  : Nat     -- consecutive cool sweeps toward a restart, R401
  stopping : Bool  -- switch-off for heat in progress
  cuts   : List Nat -- WTIMEs of hard cuts, R401
  off    : Bool    -- stopped or cut for heat, awaiting restart
  rain   : List Int -- rainflow residue, R404
  cyc    : List Nat -- K20, K30, K50, OVER80 in halves
  life   : Nat     -- D in 2⁻⁴⁰; the register shows 2⁻²⁴
  lifeEv : Bool    -- class 0x2E raised
  force  : BitVec 4 -- thresholds crossed and not released: logic 110 and 118 °C, DRAM 95 and 105 °C, R397
  deriving DecidableEq, Repr

/-- Thermal control of the module (R394 to R407). -/
structure Thermal where
  glycol : Bool   -- COOLANT
  period : Nat    -- PERIOD, 100 µs units; 10
  hotRegion : Nat
  hotTemp : Int
  sweeps : Word
  sweeping : Bool -- a sweep is in progress
  nextSweep : Nat -- WTIME at which the next sweep is due
  sweepAt : Nat   -- WTIME at which the sweep in progress began
  cool   : BitVec 5 -- THM_COOL_STAT
  coolSet : Table Nat -- bit → WTIME + 1 since which its condition has held
  coolClr : Table Nat -- bit → WTIME + 1 since which it has been clear
  inlet  : Int
  outlet : Int
  flow   : Nat
  therm  : List Int -- T0 to T7
  tBroken : BitVec 8
  tDis   : Table Nat -- thermistor → consecutive sweeps in disagreement
  coolAt : Nat    -- WTIME at which the inferred flow was last judged or passed over (R402)
  saved  : Table (List Nat × Nat) -- cycle counts and D on the spool, by region (R404)
  hotRgn : Table Nat -- partition → region receiving its thermal lull
  deriving DecidableEq, Repr

/-! ### Start-up, firmware and security (R436 to R459) -/

/-- A firmware image in a boot flash slot (R444). -/
structure Image where
  version : Nat
  svn     : Nat
  mins    : List Nat   -- MIN[1] to MIN[6]
  measure : Nat
  debug   : Bool
  valid   : Bool
  deriving DecidableEq, Repr

/-- A firmware component (R443 to R447). -/
structure Comp where
  active : Image
  other  : Image      -- alternate slot
  same   : Bool       -- both slots hold the same image
  state  : Nat        -- 0 idle … 6 reverted
  since  : Nat        -- WTIME confirming began
  stage  : Nat        -- stage of an activation that restarts several parts
  relayed : Bool      -- the staged image came by relay
  back   : Bool       -- the activation in progress is a revert
  deriving DecidableEq, Repr

/-- A principal table entry (R451). -/
structure Principal where
  valid  : Bool
  role   : Nat
  tenant : Nat
  mask   : BitVec 16
  digest : Nat
  deriving DecidableEq, Repr

/-- A steward (R430, R431, R434): 0 absent, 1 ACTIVE, 2 STANDBY, 3 FAILED. -/
structure Stewards where
  st0    : Nat
  st1    : Nat
  active : Nat
  req    : Bool
  safe   : Bool
  none   : Bool       -- no steward in service
  ver0   : Nat
  ver1   : Nat
  deriving DecidableEq, Repr

/-- What a start restores: a partition that was READY (R442). -/
structure AutoPart where
  part   : Nat
  digest : Nat
  deriving DecidableEq, Repr

/-- Stewards, boot flash, fuses and security (R436 to R459). -/
structure Boot where
  start  : Nat        -- STATE of DEV_START
  autoload : Bool     -- 1
  fails  : Nat        -- start record
  lastCause : Nat     -- start record
  startAt : Nat       -- WTIME of the start order
  runAt  : Nat        -- WTIME RUNNING was reached
  order  : List Nat   -- regions still to power on in this start, R438
  failedOn : List Nat -- regions that failed their power-on in this start
  wasReady : List AutoPart -- partitions READY when the wafer last stopped, R442
  stw    : Stewards
  comps  : Table Comp -- components 1 to 6
  relayAct : Bool     -- RELAY_ACT
  -- fuses (R448)
  owner  : Option Nat -- owner key digest
  ownerPend : Option Nat -- digest in the wrapped-key area without its completion marker
  rb     : List Nat   -- RB0 to RB3
  debugLock : Bool
  isolate : Bool
  fuseBusy : Nat      -- WTIME at which BUSY ends
  principals : Table Principal -- 1,024
  cal    : Table Byte -- calibration record in force for the window (16,384 bytes)
  calUse : Table Byte -- record whose values the running start uses
  calOpen : Bool
  calStage : Table Byte
  calLast : Nat       -- WTIME of the last staging write
  calStatus : Nat
  netRec : Bool       -- network configuration stored in both start records, R305
  svcPresent : Bool   -- service cable present, R469
  svcPower : Bool     -- SVC_3V3 driven
  recover : Bool      -- the ROM accepts boot flash recovery only: both stewards FAILED, or SVC_RECOVER low at reset, R437, R469
  restarted : List (Nat × Nat) -- agents restarted once: region, WTIME (R420)
  deriving DecidableEq, Repr

/-! ### Regions and the whole part -/

/-- A region's agent (R413, R420, R463). -/
structure RAgent where
  hbMiss : Nat       -- HBMISS, 8 bits
  missed : Nat       -- consecutive heartbeats missed
  standby : Bool     -- reserved as a standby region
  pending : Bool     -- a new image awaits activation
  ver    : Nat       -- region agent VERSION
  vver   : Nat       -- vault controller VERSION
  unusable : Bool    -- slub of KIND 6
  notes  : List Nat  -- last notes to the agent: PC of a halt, or a DBGMARK argument (R81, R101)
  deriving DecidableEq, Repr

/-- A region (R8, R18). -/
structure Region where
  part : Option Nat   -- owning partition
  net  : RNet
  clk  : RClk
  pwr  : RPower
  thm  : RTherm
  agt  : RAgent
  deriving DecidableEq, Repr

/-- Registers of a region as it left IDLE or RUN (R461). -/
structure Snap where
  region : Region
  clusters : List Cluster
  deriving DecidableEq, Repr

/-- The state of the part. -/
structure State where
  pending  : List Instr            -- commands waiting, first in first out
  cores    : Table Core            -- 73,728 physical cores
  vaults   : Table Vault
  clusters : Table Cluster         -- 1,024
  regions  : Table Region          -- 64
  snaps    : Table (Option Snap)
  links    : Table (List LaneWord) -- lane words in flight, by core × 8 + input lane
  tree     : Tree
  parts    : Table Part            -- 16
  srv      : Serving
  eth      : Eth
  xfers    : List Xfer             -- at most 32
  nextXfer : Nat
  spl      : Spool
  clk      : Clk
  pwr      : Power
  thm      : Thermal
  boot     : Boot
  evt      : Evts
  draws    : Nat                   -- the model's own: free values drawn so far
  deriving DecidableEq, Repr

/-- Why a step stops. -/
inductive Fault where
  /-- A command names a core, region, switch, partition or other unit that does not exist (R8 to R11, R164). Raised by
  every meaning that takes such a number. Safe: the part has no such unit for an event to happen at. -/
  | noSuchUnit
  deriving DecidableEq, Repr

/-- Why a step is refused. -/
inductive Refusal where
  /-- The command of this mnemonic has no meaning in the model yet. Raised only by the arms of `exec`. Safe. -/
  | notModelled (mnemonic : String)
  deriving DecidableEq, Repr

/-! ### The parts of the state by number -/

/-- An idle core with nothing loaded: every register 0 (R75, R79). -/
def Core.reset : Core :=
  { run := .idle, wait := .none, istore := [], entryIngest := 0, entrySpin := 0, pc := 0, loops := [], s := [], a := [],
    v := [], p := [], sat := false, bxo := false, par := false, res := false, und := false, wmark := 0, unf := 0,
    shadow := [], pad := [], circ := [], credit := [], creditInit := [], released := [], creditIn := [], lputDir := [], inbox1 := 0,
    inbox2 := 0, routes := [], router := [], eng := [], engFree := 0, engLast := 0, vq := [], desc := [], lputs := [], sends := [],
    cycle := 0, frameStart := 0, frameNo := 0, lastFlag := 0, score := [], moveFree := 0, padWrites := [],
    beat := false, beatAt := 0, dead := false, vacant := false }

/-- A vault at power-on. -/
def Vault.reset : Vault :=
  { data := [], chk := [], rows := [], retired := [], spares := [], wb := [], scrubAt := 0, scrubDue := 0, passes := 0, bad := [],
    lost := false, failing := false, refreshRow := 0 }

/-- Cluster registers at reset (R46, R137, R162, R184, R223). -/
def Cluster.reset : Cluster :=
  { engStat := 0, satCnt := 0, bxoCnt := 0, unfCnt := 0, gate := 0x1F, busy := 0, vltStat := 0, vltCe := 0, vltUe := 0,
    vltLast := 0, scrub := 0x08, minSpare := 8, padStat := 0, padCe := 0, padUe := 0, banks := 0x4000000, spans := [],
    remap := 0xFFFFFFFF, latStat := 0, missCnt := 0, chkCnt := 0, latSat := 0, latFlits := 0, treStat := 0, treFlits := 0,
    treChk := 0, vacant := 0, dark := false, scrubbed := 0 }

/-! ### Reset values -/

/-- Region clock at reset: stopped, K_FLOOR 8, MINK 16 (R373). -/
def RClk.reset : RClk :=
  { k := 0, kCap := 0, kFloor := 8, consec := 0, quiet := 0, stretch := 0, stretchNow := 0, up := 0, down := 0, minK := 16
    restartAt := 0, stopped := true, ramp := false, floorHit := 0 }
/-- Region lattice, tree and schedule state at reset: every seam closed (R18, R158, R163). -/
def RNet.reset : RNet :=
  { plan := 0, closed := 0xF, slack := 0, hold := 0, stalls := [], maxOcc := [], held := none, heldAt := 0, holdNext := none, count := 0
    exec := 0, frameNo := 0, fired := [], seqPos := 0, seqRep := 0, inFrame := false, gateCnt := 0, lateCnt := 0, copper := 0, upA := 0, upB := 0
    vc0Max := 0, hostFlits := 0 }
/-- Region power at reset: OFF; VMIN reads 0x3FF (R393). -/
def RPower.reset : RPower :=
  { state := 0, setpt := 0, marginal := false, highSince := none, vmin := 0x3FF, vminCl := 0, vminAt := 0, lull := 0
    cause := 0, tries := 0, quiet := 0, trimBase := 0, watts := 0, gust := ⟨0, 0, 0⟩, gustAt := [], vcore := 0, vcoreCl := 0, forced := ⟨0, 0, 0⟩ }
/-- Region thermal state at reset (R407). -/
def RTherm.reset : RTherm :=
  { logic := 0, dram := 0, lDis := false, dDis := false, lBroken := false, dBroken := false, lDisN := 0, dDisN := 0
    warn := false, lulls := false, hot := false, refresh := 0, coolN := 0, stopping := false, cuts := [], off := false
    rain := [], cyc := [0, 0, 0, 0], life := 0, lifeEv := false, force := 0 }
/-- Region agent at reset (R463). -/
def RAgent.reset : RAgent :=
  { hbMiss := 0, missed := 0, standby := false, pending := false, ver := 0, vver := 0, unusable := false
    notes := [] }
/-- A region at reset: in no partition. -/
def Region.reset : Region :=
  { part := none, net := .reset, clk := .reset, pwr := .reset, thm := .reset, agt := .reset }
/-- No doff. -/
def Doff.idle : Doff := { state := 0, inPlace := false, image := 0, units := [], dst := [], done := 0, data := [], again := [] }
/-- A partition at reset: EMPTY (R74, R223, R253, R274, R303, R393, R435). -/
def Part.reset : Part :=
  { state := .empty, last := 0, alt := 0, signed := false, debug := false, row0 := 0, col0 := 0, rows := 1, cols := 1
    errCheck := 0, errType := 0, lateCnt := 0, wdogCnt := 0, digest := 0, signer := 0, model := 0, mins := [], defect := 0, cfg := []
    tune := [], tuneDigest := 0, tuned := false, applying := 0, placed := false, pend := [], pendDigest := 0, pendSig := 0, standby := [], exps := [], fSat := false
    fBxo := false, fFall := false, fGroup := 0, fLayer := 0, fMark := 0, replays := 0, fallbacks := 0, decayEn := true
    erefPend := false, kvEvict := 0, kvLost := 0, kvClamp := 0, kvZero := 0, kvRounds := 0, kvLoad := 0, chosen := [], kvDefer := 0
    kvResend := 0, again := 0, epoch := 0, ptrs := [], ptrsB := [], oldLive := false, mixed := false, restore := false
    doff := .idle, doffWait := [], doffCnt := 0, wtDigest := 0, adapt := [], tuneSlot := none, tunes := [], sched := 0x00010404
    spool := 0x070807D0, waits := 0x03E80064, tokens := 0, specAcc := 0, specProp := 0, stops := 0, narrowed := 0
    held := 0, step := 0, batch := 0, batchReqs := 0, ingest := false, spins := 0, tuneTurn := false, phase := .none
    items := [], tuneRun := 0, runNo := 0, act8 := false, reruns := 0, wdogs := 0, kvPages := 0, stepEpoch := 0
    faults := [], freezeAt := none, ranAt := 0, hazMask := 0, bad := [], strikes := [], repair := none, downCause := 0, repRegion := 0
    repCluster := 0, repCore := 0, repOrigin := 0, repVault := false, repReruns := 0, repairs := 0, repLast := 0
    repMax := 0, powW := 0, powCap := 0, powLull := 0, lullShare := 0, lullNeed := 0, thmShare := 0, energy := 0
    returnReq := false }
/-- Parameters of an unused entry. -/
def noParams : ReqParam := ⟨0, 0, 0, 0, 0, 0, 0, 0, 0, 0, 0, 0, [], 0, 0, 0⟩
/-- An unused request table entry, generation 1 (R275). -/
def Request.reset : Request :=
  { gen := 1, used := false, state := .queued, before := .queued, par := noParams, hist := [], turnLen := 0, turnGot := 0, lastBlock := 0
    committed := 0, positions := 0, newTok := 0, owner := 0, chunks := [], nextSeq := 0, pausePend := false
    reshard := false, reingest := false, pages := [], target := [], shardLeft := 0, slot := false, resid := [], rho := [], order := 0, lastStep := 0
    kvExpired := false, histLost := false, pausedAt := 0, idleSince := 0, endedAt := 0, waitSince := none
    spooling := none, spoolingIn := false, kvCard := none, kvModel := 0, kvPage := 0, durableAt := 0, boundSlot := false
    cancelPend := false, lastNew := false, retryAt := 0 }
/-- Tenant settings at reset (R289, R303). -/
def Tenant.reset : Tenant :=
  { admitOk := true, limit := false, reject := false, promptWt := 32, rate := 0, depth := 0, maxReq := 0, level := 0
    used := 0, frac := 0 }
/-- Serving engine at reset (R303). -/
def Serving.reset : Serving := { reqs := [], parked := [], tenants := [], histTtl := 0xA8, resultTtl := 0x3C, order := 0 }
/-- Interface configuration never written; interface 16 is enabled with DHCP (R333). -/
def Iface.reset : Iface := { ip4 := 0, en := false, dhcp := false, prefix4 := 0, ip6 := [0, 0, 0, 0], tag := false, vid := 0, man4 := false, man6 := false }
/-- The Ethernet block at reset (R333). -/
def Eth.reset : Eth :=
  { cfg := 0x00030000, link := 0, bypass := true, force := 0, oeReady := 0, present := 0, safe := 0, req := 0, oeGood := 0
    ifs := [(16, { Iface.reset with en := true, dhcp := true })], pcp := 0x0E495C76, ptp := 0x140, sessCfg := 30
    retx := 0, drop := 0, fwd := 0, mismatch := false, sessions := [], half := [], hsOut := [], paused := []
    neigh := [], relays := [], relayOut := [], hellos := 0, helloAt := 0, egress := [], rx := [], xoff := 0, answers := 0 }
/-- A card bay with no card (R352). -/
def Card.reset : Card :=
  { state := 0, present := false, degraded := false, busy := false, lost := false, overdrawn := false, req := false
    rate0 := 0, rate := 0, level := 0, aX100 := 0xD2, sparePct := 0, peMean := 0, ceCnt := 0, ueCnt := 0
    over_ := 0, version := 0, held := [], service := 0, retired := [], scrubbed := 0, tier4 := [], sent := 0, since := 0, copied := 0 }
/-- The spool at reset (R352). -/
def Spool.reset : Spool :=
  { govEn := true, lifeY := 7, scrubDays := 7, cards := [], objs := [], gens := [], nextId := 1 }
/-- Clocks at reset (R373). -/
def Clk.reset : Clk :=
  { wtime := 0, checkpoint := 0, rootLock := false, refOk := false, selfRefresh := false, mclkFallback := false
    domFault := 0, lastFault := [], lockTries := 0, lockAt := 0, alnSrc := 0, alnState := 0, alnSeq := 0, alnW0 := 0, alnT0s := 0
    alnT0ns := 0, alnRate := 0, alnOfs := 0, alnGood := 0, alnLast := 0, alnFirst := none, ppsTod := 0, ethRetry := 0 }
/-- A feed not connected. -/
def Feed.reset : Feed := { on := false, ok := false, volt := 0, cur := 0, req := false, safe := false }
/-- A sharing group at reset: every regulator in service, limit 24 A (R393). -/
def Group.reset : Group :=
  { ok := 0xF, fails := [], limit := 24, dark := false, crack := false, cur := 0, peak := 0, now := 0
    meas := [], flagged := false }
/-- Module power at reset (R393). -/
def Power.reset : Power :=
  { feedA := .reset, feedB := .reset, pin := 0, peak := 0, energy := 0, window := [], groups := [], ons := [], zoneVin := [], vvault := [] }
/-- Thermal control at reset (R407). -/
def Thermal.reset : Thermal :=
  { glycol := false, period := 10, hotRegion := 0, hotTemp := 0, sweeps := 0, sweeping := false, nextSweep := 0, sweepAt := 0, cool := 0
    coolSet := [], coolClr := [], inlet := 0, outlet := 0, flow := 0, therm := [0, 0, 0, 0, 0, 0, 0, 0], tBroken := 0
    tDis := [], coolAt := 0, saved := [], hotRgn := [] }
/-- A factory firmware image. -/
def Image.reset : Image := { version := 0, svn := 0, mins := [0, 0, 0, 0, 0, 0], measure := 0, debug := false, valid := true }
/-- A component with the factory image in both slots. -/
def Comp.reset : Comp :=
  { active := .reset, other := .reset, same := true, state := 0, since := 0, stage := 0, relayed := false, back := false }
/-- An empty principal table entry. -/
def Principal.reset : Principal := { valid := false, role := 0, tenant := 0, mask := 0, digest := 0 }
/-- Stewards, boot flash and fuses at reset (R434, R459). -/
def Boot.reset : Boot :=
  { start := 0, autoload := true, fails := 0, lastCause := 0, startAt := 0, runAt := 0, order := [], failedOn := []
    wasReady := []
    stw := { st0 := 0, st1 := 0, active := 0, req := false, safe := false, none := false, ver0 := 0, ver1 := 0 }
    comps := [], relayAct := false, owner := none, ownerPend := none, rb := [0, 0, 0, 0], debugLock := false
    isolate := false, fuseBusy := 0, principals := [], cal := [], calUse := [], calOpen := false, calStage := []
    calLast := 0, calStatus := 0, netRec := false, svcPresent := false, svcPower := false
    recover := false, restarted := [] }
/-- The tree at reset. -/
def Tree.reset : Tree :=
  { flits := [], groups := [], reds := [], bars := [], barMsgs := [], rels := [], acks := [], failed := [], ackIn := [], seen := [], busy := [], paths := [], asm := [], deliver := []
    hosts := [], nextSeq := 1, nextPid := 0 }
/-- Events at reset: EVT_RATE 16, everything else 0 (R433). -/
def Evts.reset : Evts :=
  { counts := [], ring := [], head := 0, persist := 0, ack := 0, rate := 16, mask := 0, queues := [], edge := []
    squalls := [], slubs := [], saved := [], batchAt := 0 }

/-- The part right after reset: stewards in boot, every region OFF, no session, no partition (R383, R437). -/
def State.reset : State :=
  { pending := [], cores := [], vaults := [], clusters := [], regions := [], snaps := [], links := [], tree := .reset
    parts := [], srv := .reset, eth := .reset, xfers := [], nextXfer := 1, spl := .reset, clk := .reset, pwr := .reset
    thm := .reset, boot := .reset, evt := .reset, draws := 0 }

end Sys2Proof.Machine
end

