-- ==== Sys2Proof/Machine/Ops.lean ====
section
/-!
DEFINITION. The named operations over the state: sparse storage, the parts of the state by number, logical and physical
positions, messages to the host, events, the defect map and the loaded configuration.
-/
namespace Sys2Proof.Machine

/-- What a command answers. -/
abbrev Out := Host.Outcome State Fault Refusal

/-- A class-specific part: (offset, bytes, value) of each field (R424). -/
def sp (l : Fields) : Fields := l

/-- One second, millisecond and microsecond of WTIME ticks: bclk runs at 175 MHz (R353, R364). -/
def secs (n : Nat) : Nat := n * 175000000
/-- Milliseconds in ticks. -/
def msecs (n : Nat) : Nat := n * 175000
/-- Microseconds in ticks. -/
def usecs (n : Nat) : Nat := n * 175

/-! ### Sparse storage -/

/-- Read: the listed value, or the default. -/
def tget {α : Type} (t : Table α) (d : α) (k : Nat) : α :=
  match t with
  | [] => d
  | (j, v) :: r => if j = k then v else tget r d k

/-- Put an entry before the first greater key. -/
def tins {α : Type} (t : Table α) (k : Nat) (x : α) : Table α :=
  match t with
  | [] => [(k, x)]
  | (j, v) :: r => if k < j then (k, x) :: (j, v) :: r else (j, v) :: tins r k x

/-- Write: keeps keys rising and lists no default. -/
def tset {α : Type} [DecidableEq α] (t : Table α) (d : α) (k : Nat) (x : α) : Table α :=
  let t := t.filter fun e => decide (e.1 ≠ k)
  if x = d then t else tins t k x

/-- Change one entry. -/
def tupd {α : Type} [DecidableEq α] (t : Table α) (d : α) (k : Nat) (f : α → α) : Table α :=
  tset t d k (f (tget t d k))

/-- Keys strictly rising from `lo` on, and no entry equal to the default. -/
def twf {α : Type} [DecidableEq α] (d : α) : Nat → Table α → Bool
  | _, [] => true
  | lo, (j, v) :: r => decide (lo ≤ j) && decide (v ≠ d) && twf d (j + 1) r

/-- Canonical form of a memory (a table of bytes that reads 0 where nothing is listed). -/
def Memory.wf (m : List Host.Cell) : Bool := twf (0 : Byte) 0 m

/-- Write consecutive bytes, addresses modulo `m`. -/
def putList (t : List Host.Cell) (addr m : Nat) : List Byte → List Host.Cell
  | [] => t
  | b :: bs => putList (tset t 0 (addr % m) b) (addr + 1) m bs

/-- A 32-bit counter that stops at 0xFFFF_FFFF. -/
def satInc (x : Word) : Word := if x = 0xFFFFFFFF then x else x + 1
/-- Add to a counter that stops at 0xFFFF_FFFF. -/
def satAdd (x : Word) (n : Nat) : Word := if x.toNat + n ≥ 0xFFFFFFFF then 0xFFFFFFFF else BitVec.ofNat 32 (x.toNat + n)

/-! ### Bytes -/

/-- Little-endian value of bytes (R13). -/
def leNat (bs : List Byte) : Nat := bs.foldr (fun b n => b.toNat + 256 * n) 0
/-- Little-endian bytes of a value. -/
def leBytes : Nat → Nat → List Byte
  | 0, _ => []
  | n + 1, x => BitVec.ofNat 8 x :: leBytes n (x / 256)

/-- Cut a byte list into pieces of n, for `cnt` pieces. -/
def chunks (n : Nat) : Nat → List Byte → List (List Byte)
  | 0, _ => []
  | c + 1, bs => bs.take n :: chunks n c (bs.drop n)

/-- Core by physical index. -/
def State.core (s : State) (c : Nat) : Core := tget s.cores Core.reset c
/-- Store a core. -/
def State.setCore (s : State) (c : Nat) (k : Core) : State := { s with cores := tset s.cores Core.reset c k }
/-- Change a core. -/
def State.updCore (s : State) (c : Nat) (f : Core → Core) : State := s.setCore c (f (s.core c))
/-- Vault by physical index. -/
def State.vault (s : State) (c : Nat) : Vault := tget s.vaults Vault.reset c
/-- Store a vault. -/
def State.setVault (s : State) (c : Nat) (v : Vault) : State := { s with vaults := tset s.vaults Vault.reset c v }
/-- Cluster registers by global cluster index 16 × region + cluster. -/
def State.cluster (s : State) (u : Nat) : Cluster := tget s.clusters Cluster.reset u
/-- Change a cluster's registers. -/
def State.updCluster (s : State) (u : Nat) (f : Cluster → Cluster) : State :=
  { s with clusters := tset s.clusters Cluster.reset u (f (s.cluster u)) }
/-- Region by index. -/
def State.region (s : State) (r : Nat) : Region := tget s.regions Region.reset r
/-- Change a region. -/
def State.updRegion (s : State) (r : Nat) (f : Region → Region) : State :=
  { s with regions := tset s.regions Region.reset r (f (s.region r)) }
/-- Change a region's lattice, tree and schedule state. -/
def State.updNet (s : State) (r : Nat) (f : RNet → RNet) : State := s.updRegion r fun x => { x with net := f x.net }
/-- Partition by number. -/
def State.part (s : State) (p : Nat) : Part := tget s.parts Part.reset p
/-- Change a partition. -/
def State.updPart (s : State) (p : Nat) (f : Part → Part) : State :=
  { s with parts := tset s.parts Part.reset p (f (s.part p)) }

/-- Region of a core. -/
def regionOf (c : Nat) : Nat := c / 1152
/-- Partition that owns a core's region. -/
def State.partOf (s : State) (c : Nat) : Option Nat := (s.region (regionOf c)).part

/-! ### Logical and physical positions (R10, R11, R150) -/

/-- Remap entry of row r of a cluster. -/
def remapRow (m : Word) (r : Nat) : Nat := m.toNat / 16 ^ r % 16
/-- Physical column of logical column j under remap entry k (R150). -/
def physCol (k j : Nat) : Nat := if k ≤ 7 ∧ k ≤ j then j + 1 else j
/-- Logical column at physical column x, if a logical core sits there. -/
def logCol (k x : Nat) : Option Nat :=
  if k ≤ 7 then (if x < k then some x else if x = k then none else some (x - 1))
  else if x < 8 then some x else none
/-- Physical core of logical row r, column j of cluster u. -/
def State.physOf (s : State) (u r j : Nat) : Nat := u * 72 + 9 * r + physCol (remapRow (s.cluster u).remap r) j
/-- Region index of region column x, row y (R8: index 8 × row + column). -/
def clusterAt (lx ly : Nat) : Nat :=
  16 * (8 * (ly / 32) + lx / 32) + 4 * (ly % 32 / 8) + lx % 32 / 8
/-- Physical core at logical coordinate (x, y), 0 to 255 each (R10). -/
def State.physAt (s : State) (lx ly : Nat) : Nat := s.physOf (clusterAt lx ly) (ly % 8) (lx % 8)
/-- Logical coordinate of a physical core, none for an unused position. -/
def State.logXY (s : State) (c : Nat) : Option (Nat × Nat) :=
  let u := c / 72
  let row := c % 72 / 9
  let reg := u / 16
  let cl := u % 16
  (logCol (remapRow (s.cluster u).remap row) (c % 9)).map fun j =>
    (32 * (reg % 8) + 8 * (cl % 4) + j, 32 * (reg / 8) + 8 * (cl / 4) + row)
/-- The physical cores of a region that hold logical cores, in logical order. -/
def State.regionCores (s : State) (r : Nat) : List Nat :=
  (List.range 1024).map fun i => s.physOf (16 * r + i / 64) (i % 64 / 8) (i % 8)
/-- Non-vacant logical cores of a region. -/
def State.liveCores (s : State) (r : Nat) : List Nat := (s.regionCores r).filter fun c => !(s.core c).vacant

/-! ### Events (R422 to R427) -/

/-- Records the ring holds at most. -/
def ringSize : Nat := 4096

/-- SEQ of the oldest record held (EVT_TAIL). -/
def Evts.tail (e : Evts) : Nat := match e.ring with
  | [] => e.head
  | r :: _ => r.seq

/-- A serial number lies before another (32-bit serial-number arithmetic, R315, R479). -/
def serialLt (a b : Nat) : Bool := decide (a ≠ b) && decide ((b + 2 ^ 32 - a) % 2 ^ 32 < 2 ^ 31)

/-- An entry of the ring is free: fewer than 4,096 records held, or the oldest has been persisted or freed (R425). -/
def Evts.room (e : Evts) : Bool :=
  decide (e.ring.length < ringSize) || serialLt e.tail e.persist

/-- Bytes of an unsigned number, most significant first (R13, R311). -/
def beBytes (n x : Nat) : List Byte := (leBytes n x).reverse

/-- The class-specific part as Wohatrum carries it: each field most significant byte first, gaps 0 (R423). -/
def specBytes (fs : Fields) : List Byte :=
  let put := fun (bs : List Byte) (f : Nat × Nat × Nat) => bs.take f.1 ++ beBytes f.2.1 f.2.2 ++ bs.drop (f.1 + f.2.1)
  (fs.foldl put (List.replicate 32 0)).take 32

/-- A record as Wohatrum carries it (R423). -/
def EvRec.bytes (r : EvRec) : List Byte :=
  beBytes 4 r.seq ++ beBytes 1 r.cls ++ beBytes 1 r.kind ++ beBytes 1 r.region ++ beBytes 1 r.cluster ++ beBytes 8 r.wtime
  ++ beBytes 1 r.part ++ beBytes 1 r.core ++ beBytes 1 r.lx ++ beBytes 1 r.ly ++ beBytes 4 r.step ++ beBytes 4 r.reqid
  ++ beBytes 4 0 ++ specBytes r.spec

/-! ### Messages to the host (R312, R315, R316) -/

/-- Session by identifier. -/
def State.session (s : State) (i : Nat) : Option Session := tget s.eth.sessions none i
/-- Store a session. -/
def State.setSession (s : State) (i : Nat) (h : Session) : State :=
  { s with eth := { s.eth with sessions := tset s.eth.sessions none i (some h) } }
/-- SEQ after n: 1 to 0xFFFF_FFFF, skipping 0 on wrapping (R315). -/
def seqNext (n : Nat) : Nat := if n ≥ 0xFFFFFFFF then 1 else n + 1
/-- First resend interval, 100 µs, and the longest, 100 ms, in ticks (R315). -/
def resendFirst : Nat := 17500
/-- See `resendFirst`. -/
def resendMost : Nat := 17500000
/-- Datagrams leave in a session: XMIT rises with each, and the first carries a pending ECE (R316, R318). -/
def Session.left (h : Session) (n : Nat) : Session := if n = 0 then h else { h with xmit := h.xmit + n, ece := false }
/-- Management classes: the only ones the management port carries (R310, R314). -/
def mgmtClass (cls : Nat) : Bool := decide (cls ≤ 8) && !decide (cls = 4)
/-- A message may leave through the session's interface: the management port carries management classes and the refusal of what
arrives there in another (R3, R310). The status of the refusal is INCOMPATIBLE. -/
def Session.carries (h : Session) (m : OutMsg) : Bool :=
  decide (h.iface ≠ 16) || mgmtClass m.cls || (m.reply && decide (m.status = 0x13))
/-- Messages within the send window are sent now; the others wait (R316), as does one the interface may not carry (R310). -/
def Session.fill (h : Session) (now : Nat) : Session :=
  let lim := min h.peerWin h.cwnd
  let leaves := fun (m : OutMsg) => !m.sent && h.carries m
  let tx := h.tx.zipIdx.map fun (m, i) =>
    if leaves m ∧ i < lim then { m with sent := true, first := now, due := now + resendFirst } else m
  { h.left ((h.tx.take lim).filter leaves).length with tx := tx }

/-- A message the device sends in a session: it takes the next SEQ and is kept until acknowledged (R315). -/
def State.send (s : State) (ses cls typ : Nat) (reply more : Bool) (corr status part : Nat) (body : List Byte) : State :=
  match s.session ses with
  | none => s
  | some h =>
    let m : OutMsg := { seq := h.nextOut, cls := cls, typ := typ, reply := reply, more := more, corr := corr
                        status := status, part := part, body := body, sends := 0, first := 0, due := 0, sent := false }
    s.setSession ses (Session.fill { h with tx := h.tx ++ [m], nextOut := seqNext h.nextOut } s.clk.wtime)

/-- A push (R323). -/
def State.push (s : State) (ses cls typ part : Nat) (body : List Byte) : State :=
  s.send ses cls typ false false 0 0 part body

/-- Push an event record to the sessions subscribed to its class (R427). -/
def State.pushRecord (s : State) (r : EvRec) : State :=
  s.eth.sessions.foldl (fun s (i, h) =>
    match h with
    | some h => if h.evts.getLsbD r.cls then s.push i 7 3 0xFF r.bytes else s
    | none => s) s

/-- Enter a record into the ring: it takes the next SEQ and is pushed to subscribed sessions (R425, R427). -/
def State.enterRing (s : State) (r : EvRec) : State :=
  let r := { r with seq := s.evt.head }
  let old := if s.evt.ring.length < ringSize then s.evt.ring else s.evt.ring.drop 1
  let s := { s with evt := { s.evt with ring := old ++ [r], head := (s.evt.head + 1) % 2 ^ 32 } }
  s.pushRecord r

/-- Drop a record into its class's squall slot (R426). -/
def Evts.squall (e : Evts) (cls now : Nat) : Evts :=
  let q := tget e.squalls ⟨0, 0, 0⟩ cls
  let q' : Squall := { dropped := q.dropped + 1, first := if q.dropped = 0 then now else q.first, last := now }
  { e with squalls := tset e.squalls ⟨0, 0, 0⟩ cls q' }

/-- Classes that the steward raises about a region: their records wait in the edge queue, not in the region agent's
(R392, R394, R406, R425). -/
def stewardClasses : List Nat := [0x22, 0x25, 0x28, 0x29, 0x2A, 0x2B, 0x2C, 0x2D, 0x2E]
/-- Raise an event: its class count rises, and unless the class is masked its record enters the ring, waits in its
queue while the ring is full, or is dropped into the squall slot when the queue is full (R422, R425, R426). -/
def State.raise (s : State) (r : EvRec) : State :=
  let s := { s with evt := { s.evt with counts := tupd s.evt.counts 0 r.cls fun n => min (n + 1) (2 ^ 64 - 1) } }
  if s.evt.mask.getLsbD r.cls then s
  else if s.evt.room ∧ s.evt.edge.isEmpty ∧ s.evt.queues.isEmpty ∧ s.evt.squalls.isEmpty then s.enterRing r
  else if r.region < 64 ∧ !stewardClasses.contains r.cls then
    let q := tget s.evt.queues [] r.region
    if q.length < 64 then { s with evt := { s.evt with queues := tset s.evt.queues [] r.region (q ++ [r]) } }
    else { s with evt := s.evt.squall r.cls s.clk.wtime }
  else if s.evt.edge.length < 256 then { s with evt := { s.evt with edge := s.evt.edge ++ [r] } }
  else { s with evt := s.evt.squall r.cls s.clk.wtime }

/-- Record of a wafer-edge unit. -/
def State.edgeEv (s : State) (cls : Nat) (spec : Fields) : EvRec :=
  { seq := 0, cls := cls, kind := 0, region := 255, cluster := 255, wtime := s.clk.wtime, part := 255, core := 255
    lx := 0, ly := 0, step := 0, reqid := 0, spec := spec, acked := false }
/-- Record of a region. -/
def State.regionEv (s : State) (r cls : Nat) (spec : Fields) : EvRec :=
  let p := (s.region r).part
  { s.edgeEv cls spec with region := r, part := p.getD 255, step := (p.map fun p => (s.part p).step).getD 0 }
/-- Record of a cluster (global index). -/
def State.clusterEv (s : State) (u cls : Nat) (spec : Fields) : EvRec := { s.regionEv (u / 16) cls spec with cluster := u % 16 }
/-- Record of a core (R423). -/
def State.coreEv (s : State) (c cls : Nat) (spec : Fields) : EvRec :=
  let (lx, ly) := (s.logXY c).getD (0, 0)
  { s.clusterEv (c / 72) cls spec with core := c % 72, lx := lx, ly := ly }
/-- Record of a partition. -/
def State.partEv (s : State) (p cls : Nat) (spec : Fields) : EvRec :=
  { s.edgeEv cls spec with part := p, step := (s.part p).step }
/-- Record of a request in a partition. -/
def State.reqEv (s : State) (p id cls : Nat) (spec : Fields) : EvRec := { s.partEv p cls spec with reqid := id }

/-- Raise several records in order. -/
def State.raiseAll (s : State) (rs : List EvRec) : State := rs.foldl State.raise s

/-! ### Step faults (R108, R412) -/

/-- Note a class that keeps a partition's running step from committing. -/
def State.notePartFault (s : State) (p cls : Nat) : State :=
  s.updPart p fun x => { x with faults := if x.faults.contains (cls, 65536) then x.faults else x.faults ++ [(cls, 65536)] }

/-- Note a class raised by a core: the step is not committed, and the core's logical position is evidence, once in a run but
for a link check, of which each counts (R412). -/
def State.noteStepFault (s : State) (c cls : Nat) : State :=
  match s.partOf c, s.logXY c with
  | some p, some (x, y) => s.updPart p fun t =>
      { t with faults := if cls ≠ 0x19 ∧ t.faults.contains (cls, 256 * y + x) then t.faults
                         else t.faults ++ [(cls, 256 * y + x)] }
  | some p, none => s.notePartFault p cls
  | none, _ => s

/-! ### The defect map (R408 to R410) -/

/-- Sort key of a slub: REGION, CLUSTER, KIND, POS, DETAIL, ROW (R410). -/
def Slub.key (b : Slub) : Nat :=
  let kind := b.w0.toNat % 256
  let region := b.w0.toNat / 256 % 256
  let cluster := b.w0.toNat / 65536 % 256
  let pos := b.w0.toNat / 16777216
  let detail := b.w1.toNat / 256 % 256
  let row := b.w1.toNat / 65536
  ((((region * 256 + cluster) * 256 + kind) * 256 + pos) * 256 + detail) * 65536 + row

/-- A slub entry (R409). `origin`: [3:0] origin, [7:4] cause. -/
def mkSlub (kind region cluster pos origin detail row wtime : Nat) : Slub :=
  { w0 := BitVec.ofNat 32 (kind + 256 * region + 65536 * cluster + 16777216 * pos)
    w1 := BitVec.ofNat 32 (origin + 256 * detail + 65536 * row)
    w2 := BitVec.ofNat 32 wtime, w3 := BitVec.ofNat 32 (wtime / 2 ^ 32) }

/-- Insert in order; an entry with the same six fields is the same slub and is kept as it was (R408, R410). -/
def insertSlub (b : Slub) : List Slub → List Slub
  | [] => [b]
  | x :: r => if b.key = x.key then x :: r else if b.key < x.key then b :: x :: r else x :: insertSlub b r

/-- Add a slub: row retirements stop at 245,760 entries, other kinds at 262,144 (R408). -/
def State.addSlub (s : State) (b : Slub) : State :=
  let lim := if b.w0.toNat % 256 = 3 then 245760 else 262144
  if s.evt.slubs.length ≥ lim then s else { s with evt := { s.evt with slubs := insertSlub b s.evt.slubs } }

/-- Position byte of a core (R409). -/
def posByte (c : Nat) : Nat := c % 9 + 16 * (c % 72 / 9)
/-- A retired vault row (R133, R409): `key` is 8192 × half + 512 × bank + row. -/
def State.addRowSlub (s : State) (c key origin : Nat) : State :=
  s.addSlub (mkSlub 3 (regionOf c) (c / 72 % 16) (posByte c) origin (key / 512 % 16 + 16 * (key / 8192)) (key % 512) s.clk.wtime)
/-- A core of a row listed dead or spare-dead at a physical position. -/
def State.slubAt (s : State) (kind c : Nat) : Bool :=
  s.evt.slubs.any fun b => decide (b.w0.toNat % 256 = kind) && decide (b.w0.toNat / 256 % 256 = regionOf c)
    && decide (b.w0.toNat / 65536 % 256 = c / 72 % 16) && decide (b.w0.toNat / 16777216 = posByte c)

/-! ### The loaded configuration (R188, R189, R212, R249) -/

/-- The configuration digest in force: the tuning container's while its sections are applied (R186, R249). -/
def Part.confNow (p : Part) : Nat := if p.tuned then p.tuneDigest else p.digest
/-- A section as it applies now: the tuning section while tuning sections are applied, else the alternate of the
standby pairing in force, else the primary (R212, R249). -/
def Part.sect (p : Part) (typ : Nat) : List Byte :=
  let tn := if p.tuned then p.tune.find? fun x => decide (x.typ = typ) else none
  let al := if p.alt = 0 then none else p.cfg.find? fun x => decide (x.typ = typ) && decide (x.alt = p.alt)
  let pr := p.cfg.find? fun x => decide (x.typ = typ) && decide (x.alt = 0)
  match tn, al, pr with
  | some x, _, _ => x.bytes
  | none, some x, _ => x.bytes
  | none, none, some x => x.bytes
  | none, none, none => []

/-- Unsigned field of a byte string: offset, bytes (R13). -/
def leAt (bs : List Byte) (off n : Nat) : Nat := leNat ((bs.drop off).take n)
/-- Signed 16-bit value. -/
def sgn16 (x : Nat) : Int := if x % 65536 ≥ 32768 then (x % 65536 : Nat) - (65536 : Int) else (x % 65536 : Nat)
/-- Signed 8-bit value. -/
def sgn8 (x : Nat) : Int := if x % 256 ≥ 128 then (x % 256 : Nat) - (256 : Int) else (x % 256 : Nat)

/-- Fields of GEOM (R196). -/
def Part.chunk (p : Part) : Nat := leAt (p.sect 1) 2 2
/-- MAX_BATCH. -/
def Part.maxBatch (p : Part) : Nat := leAt (p.sect 1) 4 4
/-- MAX_CONTEXT. -/
def Part.maxContext (p : Part) : Nat := leAt (p.sect 1) 8 4
/-- MAX_NEW. -/
def Part.maxNew (p : Part) : Nat := leAt (p.sect 1) 12 4
/-- SPEC_WIDTH. -/
def Part.specWidth (p : Part) : Nat := leAt (p.sect 1) 16 1
/-- STEP_WDOG in µs. -/
def Part.wdog (p : Part) : Nat := leAt (p.sect 1) 0x14 4

/-- FLEN0 to FLEN7 of PLAN (R200). -/
def Part.flen (p : Part) : List Nat := (List.range 8).map fun i => leAt (p.sect 4) (2 * i) 2
/-- A frame item (R200). -/
def frameItem (x : Nat) : FrameItem :=
  { plan := x % 8, gate := x.testBit 3, sel := x / 16 % 4, base := x / 2 ^ 16 % 2 ^ 16, mul := x / 2 ^ 32 % 2 ^ 16 }
/-- The valid items of a frame sequence of PLAN at an offset. -/
def seqItems (bs : List Byte) (off : Nat) : List FrameItem :=
  (((List.range 16).map fun i => leAt bs (off + 8 * i) 8).takeWhile fun x => x.testBit 6).map frameItem
/-- INGEST_SEQ. -/
def Part.ingestSeq (p : Part) : List FrameItem := seqItems (p.sect 4) 0x10
/-- SPIN_SEQ. -/
def Part.spinSeq (p : Part) : List FrameItem := seqItems (p.sect 4) 0x90

/-- An area of VLAY (R207): kind, index, first burst, bursts. -/
def Part.areas (p : Part) : List (Nat × Nat × Nat × Nat) :=
  (List.range (min 16 (leAt (p.sect 7) 0 2))).map fun i =>
    let o := 64 + 16 * i
    (leAt (p.sect 7) o 1, leAt (p.sect 7) (o + 1) 1, leAt (p.sect 7) (o + 4) 4, leAt (p.sect 7) (o + 8) 4)
/-- First area of a kind and index. -/
def Part.area (p : Part) (kind index : Nat) : Option (Nat × Nat) :=
  (p.areas.find? fun a => decide (a.1 = kind) && decide (a.2.1 = index)).map fun a => (a.2.2.1, a.2.2.2)
/-- KIND of the area holding a burst of a core's vault, 0xFF where no area does (R424). -/
def State.areaKind (s : State) (c burst : Nat) : Nat :=
  match s.partOf c with
  | none => 0xFF
  | some p =>
    match (s.part p).areas.find? fun a => decide (a.2.2.1 ≤ burst) && decide (burst < a.2.2.1 + a.2.2.2) with
    | some a => a.1
    | none => 0xFF

/-- Fields of PAGE (R209). -/
def Part.kvFmt (p : Part) : Nat := leAt (p.sect 9) 0 1
/-- POOL. -/
def Part.pool (p : Part) : Nat := leAt (p.sect 9) 1 1
/-- PAGE_BURSTS. -/
def Part.pageBursts (p : Part) : Nat := leAt (p.sect 9) 4 4
/-- PAGES: frames per core. -/
def Part.pages (p : Part) : Nat := leAt (p.sect 9) 8 4
/-- KV_HEADS. -/
def Part.kvHeads (p : Part) : Nat := leAt (p.sect 9) 12 2
/-- KV_LAYERS. -/
def Part.kvLayers (p : Part) : Nat := leAt (p.sect 9) 16 2

/-- LULL_MAX of CLKL, 0 no limit (R210). -/
def Part.lullMax (p : Part) : Nat := leAt (p.sect 0xA) 6 2
/-- POLICY bit of REPR: 0 LIVE_REPAIR, 1 VAULT_RESTORE, 2 STANDBY_REMAP (R211). -/
def Part.policy (p : Part) (i : Nat) : Bool := (leAt (p.sect 0xB) 0 1).testBit i
/-- Standby pairings of REPR: (protected region, standby region) (R211, R212). -/
def Part.pairs (p : Part) : List (Nat × Nat) :=
  (List.range (min 4 (leAt (p.sect 0xB) 1 1))).map fun i =>
    let x := leAt (p.sect 0xB) (4 + 4 * i) 4
    (x % 64, x / 256 % 64)

/-! ### Lattice neighbours and seams (R138, R158) -/

/-- The logical neighbour in a direction (0 N, 1 E, 2 S, 3 W); none at the wafer edge. -/
def State.neighbor (s : State) (c dir : Nat) : Option Nat :=
  match s.logXY c with
  | none => none
  | some (x, y) =>
    if dir = 0 then (if y = 0 then none else some (s.physAt x (y - 1)))
    else if dir = 1 then (if x = 255 then none else some (s.physAt (x + 1) y))
    else if dir = 2 then (if y = 255 then none else some (s.physAt x (y + 1)))
    else (if x = 0 then none else some (s.physAt (x - 1) y))

/-- The link leads out of the wafer or over a closed seam (R158). -/
def State.linkClosed (s : State) (c dir : Nat) : Bool :=
  match s.neighbor c dir with
  | none => true
  | some n =>
    let r := regionOf c
    let r' := regionOf n
    decide (r ≠ r') && ((s.region r).net.closed.getLsbD dir || (s.region r').net.closed.getLsbD ((dir + 2) % 4))

/-- FLEN of the plan a region runs (R141). -/
def State.frameLen (s : State) (r : Nat) : Nat :=
  (s.part ((s.region r).part.getD 0)).flen.getD (s.region r).net.plan 0

/-! ### The steward and the free values -/

/-- Note left with a region's agent (R81, R101). -/
def State.agentNote (s : State) (r x : Nat) : State :=
  s.updRegion r fun g => { g with agt := { g.agt with notes := g.agt.notes ++ [x] } }
/-- VCORE of a region is at its set point (R383). -/
def State.vcoreUp (s : State) (r : Nat) : Bool := decide ((s.region r).pwr.state = 2) || decide ((s.region r).pwr.state = 3)
/-- The next free value the spec leaves open, and the state that has drawn it. -/
def State.draw (s : State) : State × Nat := ({ s with draws := s.draws + 1 }, Config.freeValue s.draws)
/-- A card takes writes (R336). -/
def Card.writes (k : Card) : Bool := k.present && (decide (k.state = 2) || decide (k.state = 3)) && !k.req
/-- Card c, 0 or 1. -/
def State.card (s : State) (c : Nat) : Card := tget s.spl.cards Card.reset c
/-- Change a card. -/
def State.updCard (s : State) (c : Nat) (f : Card → Card) : State :=
  { s with spl := { s.spl with cards := tset s.spl.cards Card.reset c (f (s.card c)) } }
/-- Some card accepts event records (PERSIST_OK, R433). -/
def State.persistOk (s : State) : Bool := (s.card 0).writes || (s.card 1).writes
/-- In Doldrums mode (R440, R459). -/
def State.doldrums (s : State) : Bool := decide (s.boot.start = 4)

end Sys2Proof.Machine
end

