-- ==== Sys2Proof/Machine/Operands.lean ====
section
/-!
DEFINITION. The operand forms of the core instructions: the fields of the seven formats (R80), which words are
illegal (R81), the registers of R75 and R76, and the pad addresses of R77.
-/
namespace Sys2Proof.Machine

/-- Bits [hi:lo] of an instruction word (R80). -/
def fld (w : DWord) (hi lo : Nat) : Nat := (w.toNat >>> lo) % 2 ^ (hi - lo + 1)
/-- One bit of an instruction word. -/
def fbit (w : DWord) (i : Nat) : Bool := w.toNat.testBit i

/-- The opcode, [63:58]. -/
def opOf (w : DWord) : Nat := fld w 63 58

/-- Number with bits hi to lo set. -/
def span (hi lo : Nat) : Nat := (2 ^ (hi - lo + 1) - 1) <<< lo

/-- The format bits an opcode uses whatever its other fields (R80); bits outside are reserved. -/
def usedBits (op : Nat) : Nat :=
  if op = 0x00 then span 11 0
  else if op = 0x03 then span 53 42
  else if op = 0x04 then span 53 42 ||| span 15 0
  else if op = 0x05 then span 53 37
  else if 0x06 ≤ op ∧ op ≤ 0x0B then span 53 35 ||| span 31 0
  else if op = 0x0C then span 53 0
  else if op = 0x0D then span 53 48 ||| span 31 0
  else if op = 0x0E then span 50 0
  else if op = 0x0F then span 50 48 ||| span 44 42 ||| span 38 36 ||| span 34 32 ||| span 15 0
  else if op = 0x10 then span 53 48 ||| span 11 0
  else if op = 0x11 then span 47 42 ||| span 11 0
  else if op = 0x12 then span 53 4
  else if op = 0x13 then span 53 44 ||| span 40 4
  else if op = 0x16 ∨ op = 0x17 ∨ op = 0x18 ∨ op = 0x1A ∨ op = 0x1B then span 53 39
  else if op = 0x19 then span 53 34
  else if op = 0x1C ∨ op = 0x1D ∨ op = 0x1E then span 53 44
  else if op = 0x1F ∨ op = 0x22 then span 53 44 ||| span 30 27
  else if op = 0x20 then span 48 39 ||| span 33 27
  else if op = 0x21 then span 53 39 ||| span 33 31
  else if op = 0x23 then span 53 39 ||| span 37 34 ||| span 30 27
  else if op = 0x24 then span 53 45 ||| span 36 32
  else if op = 0x25 ∨ op = 0x26 then span 53 45 ||| span 40 32
  else if op = 0x27 then span 53 37 ||| span 31 27
  else if op = 0x28 then span 53 45 ||| span 36 22
  else if op = 0x29 ∨ op = 0x2A then span 53 20
  else if op = 0x2B ∨ op = 0x2C then span 52 20
  else if op = 0x2D then span 51 44 ||| span 39 8
  else if op = 0x2E then span 53 22
  else if op = 0x2F ∨ op = 0x30 then span 53 37 ||| span 30 27
  else if op = 0x31 then span 48 42 ||| span 19 0
  else if op = 0x32 then span 53 24
  else if op = 0x33 then span 23 0
  else if op = 0x34 ∨ op = 0x35 then span 53 17
  else if op = 0x36 then span 41 11
  else if op = 0x37 then span 16 0
  else if op = 0x38 then span 4 0
  else if op = 0x39 then span 41 37 ||| span 3 0
  else if op = 0x3A then span 11 0
  else if op = 0x3C then span 3 0
  else if op = 0x3D then span 15 0
  else 0

/-- The bits a word's own options leave unused (R80: RB under I = 1, IMM under I = 0, PLOG and VBCST by sub-operation). -/
def unusedByOption (w : DWord) : Nat :=
  let op := opOf w
  if (0x06 ≤ op ∧ op ≤ 0x0C) ∨ op = 0x0E then
    if fbit w 35 then span 41 36 else span 31 0
  else if op = 0x0F then
    let sub := fld w 34 32
    (if sub = 3 ∨ sub = 4 then span 38 36 else 0) ||| (if sub = 4 then 0 else span 15 0)
  else if op = 0x23 then
    if fld w 30 27 = 0 then span 48 44 ||| span 37 34 else span 43 39
  else 0

/-- Codes, specifiers and values that R81 makes illegal, apart from reserved bits and loop rules. -/
def badCode (w : DWord) : Bool :=
  let op := opOf w
  if (0x06 ≤ op ∧ op ≤ 0x0C) then
    decide (fld w 53 48 ≥ 0x30) || decide (fld w 47 42 ≥ 0x30) || (!fbit w 35 && decide (fld w 41 36 ≥ 0x30))
      || (decide (op = 0x0C) && decide (fld w 34 32 > 2))
  else if op = 0x0D ∨ op = 0x10 then decide (fld w 53 48 ≥ 0x30)
  else if op = 0x11 then decide (fld w 47 42 ≥ 0x30)
  else if op = 0x0E then
    decide (fld w 47 42 ≥ 0x30) || (!fbit w 35 && decide (fld w 41 36 ≥ 0x30)) || decide (fld w 34 32 > 5)
  else if op = 0x0F then decide (fld w 34 32 > 4)
  else if op = 0x12 ∨ op = 0x13 then
    decide (fld w 53 51 = 6) || decide (fld w 50 48 > 4) || decide (fld w 13 9 % 2 = 1) || decide (fld w 8 4 % 2 = 1)
  else if op = 0x1F ∨ op = 0x22 ∨ op = 0x23 then decide (fld w 30 27 > 1)
  else if op = 0x20 then decide (fld w 30 27 > 3)
  else if op = 0x24 then !([1, 2, 4, 8, 16].contains (fld w 36 32))
  else if op = 0x25 then
    !(decide (2 ≤ fld w 40 37) && decide (fld w 40 37 ≤ 7)) || decide (fld w 36 32 = 0) || decide (fld w 36 32 > 8)
  else if op = 0x26 then
    let f := fld w 40 37
    !(decide (f ≤ 7) || decide (f = 0xB) || decide (f = 0xC))
  else if op = 0x27 then !(decide (8 ≤ fld w 40 37) && decide (fld w 40 37 ≤ 0xA))
  else if op = 0x29 ∨ op = 0x2A then
    decide (fld w 53 48 ≥ 0x30) || decide (fld w 43 42 = 3) || decide (fld w 41 40 = 3)
  else if op = 0x2B ∨ op = 0x2C then decide (fld w 43 42 = 3) || decide (fld w 41 40 ≥ 2)
  else if op = 0x2E then
    decide (fld w 36 34 = 6) || decide (fld w 33 32 = 3) || (fbit w 26 && decide (fld w 33 32 ≠ 0))
  else if op = 0x31 then decide (fld w 43 42 = 3)
  else if op = 0x32 then decide (fld w 53 52 = 0) || decide (fld w 53 52 = 3)
  else false

/-- R81 without the loop rules, which depend on the program. -/
def illegalWord (w : DWord) : Bool :=
  decide (opOf w ≥ 0x3E)
    || decide ((w.toNat % 2 ^ 54) &&& (2 ^ 54 - 1 - (usedBits (opOf w) &&& (2 ^ 54 - 1 - unusedByOption w))) ≠ 0)
    || badCode w

/-- R86: the loop rules at the LOOP or LOOPS at address `pc`. -/
def badLoop (k : Core) (w : DWord) : Bool :=
  let op := opOf w
  if op = 0x04 ∨ op = 0x05 then
    let tgt := fld w 53 42
    let endOp := opOf (tget k.istore 0 tgt)
    decide (tgt ≤ k.pc.toNat) || decide (k.loops.length ≥ 4)
      || decide (endOp = 0x01) || decide (endOp = 0x03) || decide (endOp = 0x04) || decide (endOp = 0x05)
  else false

/-! ### Registers (R75, R76)

Scoreboard slots: 0 to 31 scalar, 32 to 47 address, 64 to 95 vector, 96 to 103 predicate. -/

/-- Scalar register (s0 reads 0). -/
def Core.sreg (k : Core) (n : Nat) : Word := if n % 32 = 0 then 0 else tget k.s 0 (n % 32)
/-- Address register. -/
def Core.areg (k : Core) (n : Nat) : BitVec 20 := tget k.a 0 (n % 16)
/-- Register named by a 6-bit specifier, zero-extended to 32 bits (R76). -/
def Core.spec (k : Core) (r : Nat) : Word :=
  if r < 32 then k.sreg r else BitVec.ofNat 32 (k.areg (r - 32)).toNat
/-- Lane of a vector register. -/
def Core.vlane (k : Core) (r l : Nat) : Word := tget k.v 0 (16 * (r % 32) + l)
/-- Predicate register (p0 reads 0xFFFF). -/
def Core.preg (k : Core) (n : Nat) : BitVec 16 := if n % 8 = 0 then 0xFFFF else tget k.p 0 (n % 8)

/-- Write a scalar register; a write to s0 is discarded (R76). -/
def Core.setS (k : Core) (n : Nat) (x : Word) : Core :=
  if n % 32 = 0 then k else { k with s := tset k.s 0 (n % 32) x }
/-- Write an address register. -/
def Core.setA (k : Core) (n : Nat) (x : BitVec 20) : Core := { k with a := tset k.a 0 (n % 16) x }
/-- Write the register a 6-bit specifier names; an address register keeps bits [19:0] (R76). -/
def Core.setSpec (k : Core) (r : Nat) (x : Word) : Core :=
  if r < 32 then k.setS r x else k.setA (r - 32) (BitVec.ofNat 20 x.toNat)
/-- Write one lane of a vector register. -/
def Core.setLane (k : Core) (r l : Nat) (x : Word) : Core := { k with v := tset k.v 0 (16 * (r % 32) + l) x }
/-- Write a predicate register; a write to p0 is discarded (R76). -/
def Core.setP (k : Core) (n : Nat) (x : BitVec 16) : Core :=
  if n % 8 = 0 then k else { k with p := tset k.p 0 (n % 8) x }
/-- Write sixteen lanes where the mask allows. -/
def Core.setLanes (k : Core) (r : Nat) (m : BitVec 16) (f : Nat → Word) : Core :=
  (List.range 16).foldl (fun k l => if m.getLsbD l then k.setLane r l (f l) else k) k

/-- Predicate bits of a word after PN (R83). -/
def Core.predBits (k : Core) (w : DWord) : BitVec 16 :=
  let p := k.preg (fld w 57 55)
  if fbit w 54 then ~~~p else p

/-- op2: IMM when I = 1, else RB (R90). -/
def Core.op2 (k : Core) (w : DWord) : Word :=
  if fbit w 35 then BitVec.ofNat 32 (fld w 31 0) else k.spec (fld w 41 36)

/-- Scoreboard slots of op2. -/
def op2Slots (w : DWord) : List Nat := if fbit w 35 then [] else [fld w 41 36]

/-- Outputs per vector for a fold (R91). -/
def foldOuts (f : Nat) : Nat := if f = 0 then 64 else if f = 1 then 32 else if f = 2 then 16 else if f = 3 then 128 else 256

/-! ### Pads (R77, R105, R109 to R111) -/

/-- Pads by number: 0 W, 1 A, 2 P (R97). -/
def padBase (p : Nat) : Nat := if p = 0 then 0x20000 else if p = 1 then 0 else 0x50000
/-- Pad sizes in bytes (R105). -/
def padSize (p : Nat) : Nat := if p = 0 then 0x30000 else if p = 1 then 0x20000 else 0x10000

/-- Offset modulo a pad's size, counted from its base, as a core byte address (R77). -/
def inPad (p addr : Nat) : Nat := padBase p + (addr + 0x100000 - padBase p) % 0x100000 % padSize p

/-- The bank of a core byte address, as its bit of RGN_CL_PAD_BANKS; none in the reserved range (R77, R105). -/
def bankBit (addr : Nat) : Option Nat :=
  if addr < 0x20000 then some (12 + addr / 0x4000)
  else if addr < 0x50000 then some ((addr - 0x20000) / 0x4000)
  else if addr < 0x60000 then some (20 + (addr - 0x50000) / 0x4000)
  else none

/-- Bank n is ON: in the applied bank map and not held in RETENTION (R109, R110). -/
def bankOn (banks : Word) (bit : Nat) : Bool := banks.getLsbD bit && !banks.getLsbD 26

/-- Why an access is refused: 0 reserved range, 1 bank not ON (R77, R111, R424). -/
def accessCause (banks : Word) (addr len : Nat) : Option Nat :=
  (List.range ((addr % 64 + len + 63) / 64)).foldl (fun r i =>
    match r with
    | some c => some c
    | none =>
      match bankBit ((addr + 64 * i) % 0x100000) with
      | none => some 0
      | some b => if bankOn banks b then none else some 1) none

/-- A core as its engine sees it: bytes of a bank that is not ON, and their shadow, read 0 (R111). -/
def Core.seen (k : Core) (banks : Word) : Core :=
  { k with pad := k.pad.filter fun e => (accessCause banks e.1 1).isNone
           shadow := k.shadow.filter fun e => (accessCause banks (64 * e.1) 1).isNone }

/-- Read n bytes from a core byte address, addresses modulo 2²⁰ (R76). -/
def Core.bytes (k : Core) (addr n : Nat) : List Byte :=
  (List.range n).map fun i => tget k.pad 0 ((addr + i) % 0x100000)

/-- The core with its pads and shadow as they stand at cycle t: a write that lands later has not changed them (R85). -/
def Core.padAt (k : Core) (t : Nat) : Core :=
  (k.padWrites.filter fun p => decide (t < p.lands)).reverse.foldl (fun k p =>
    { k with pad := p.cells.foldl (fun m e => tset m 0 e.1 e.2) k.pad
             shadow := p.sh.foldl (fun m e => tset m 0 e.1 e.2) k.shadow }) k
/-- As `bytes`, at cycle t. -/
def Core.bytesAt (k : Core) (t addr n : Nat) : List Byte := (k.padAt t).bytes addr n

/-- Write bytes at a core byte address. -/
def Core.putBytes (k : Core) (addr : Nat) (bs : List Byte) : Core :=
  { k with pad := putList k.pad addr 0x100000 bs }

/-! ### Pad check errors (R44, R107) -/

/-- An odd number of the low n bits of x is set. -/
def oddBits (n x : Nat) : Bool := (List.range n).foldl (fun b i => b != x.testBit i) false
/-- The 64-bit word a pad error lies in. -/
def errWord (e : PadErr) : Nat := match e with
  | .single i _ => i
  | .double i _ _ => i
/-- Flipped bits of its codeword. -/
def errFlips (e : PadErr) : Nat := match e with
  | .single _ a => 2 ^ a
  | .double _ a b => 2 ^ a ^^^ 2 ^ b
/-- Event class of the error in pad p: W-pad parity finds an odd number of flips, SEC-DED one or two (R107). -/
def errCls (e : PadErr) (p : Nat) : Option Nat :=
  if p = 0 then (if oddBits 65 (errFlips e) then some 0x0E else none)
  else match e with
    | .single _ a => if a < 72 then some 0x0D else none
    | .double _ a b => if a < 72 ∧ b < 72 ∧ a ≠ b then some 0x0E else none
/-- Data bits the read delivers flipped: SEC-DED corrects a single flip, and every other word comes as stored (R107). -/
def errData (e : PadErr) (p : Nat) : Nat :=
  if p = 0 ∨ errCls e p = some 0x0E then errFlips e % 2 ^ 64 else 0

/-- Bytes with flipped bits, bit 0 the lowest of the first byte. -/
def flipData (bs : List Byte) (x : Nat) : List Byte := (bs.zipIdx).map fun (b, i) => b ^^^ BitVec.ofNat 8 (x / 2 ^ (8 * i) % 256)
/-! ### Circular regions (R113 to R115) -/

/-- Descriptor of region r of pad p (0 W, 1 A, 2 P). -/
def Core.circOf (k : Core) (p r : Nat) : Circ := tget k.circ ⟨0, 0, 0, 0⟩ (16 * p + r)
/-- Store a descriptor. -/
def Core.setCirc (k : Core) (p r : Nat) (c : Circ) : Core :=
  { k with circ := tset k.circ ⟨0, 0, 0, 0⟩ (16 * p + r) c }
/-- Fill: (HEAD − TAIL) mod 2²¹ (R113). -/
def Circ.fill (c : Circ) : Nat := (c.head + 2 ^ 21 - c.tail % 2 ^ 21) % 2 ^ 21
/-- Core byte address of the byte with counter value n in pad p (R113). -/
def Circ.addr (c : Circ) (p n : Nat) : Nat := padBase p + c.base + (if c.size = 0 then 0 else n % 2 ^ 21 % c.size)
/-- Read n bytes from counter value `at_` on, following the wrap (R113). -/
def Core.circBytes (k : Core) (p r at_ n : Nat) : List Byte :=
  let c := k.circOf p r
  (List.range n).map fun i => tget k.pad 0 (c.addr p (at_ + i))
/-- Write bytes from counter value `at_` on, following the wrap; a bank that is not ON takes nothing (R111). -/
def Core.putCirc (k : Core) (banks : Word) (p r at_ : Nat) (bs : List Byte) : Core :=
  let c := k.circOf p r
  { k with pad := (bs.zipIdx).foldl (fun m (b, i) =>
      if (accessCause banks (c.addr p (at_ + i)) 1).isNone then tset m 0 (c.addr p (at_ + i)) b else m) k.pad }
/-- Address of the first of n bytes from counter value `at_` on that lies in a bank not ON. -/
def Core.circOff (k : Core) (banks : Word) (p r at_ n : Nat) : Option Nat :=
  let c := k.circOf p r
  ((List.range n).map fun i => c.addr p (at_ + i)).find? fun a => (accessCause banks a 1).isSome

end Sys2Proof.Machine
end

