-- ==== Sys2Proof/Machine/Flags.lean ====
section
/-!
DEFINITION. The engine status flags: alignment and saturation of one output (R41), the watermark (R66), ESTAT
(R101) and the flag word (R99), and what each core event does to its cluster's registers (R46, R137, R162, R184).
-/
namespace Sys2Proof.Machine

/-- Bit length of a magnitude (R66). -/
def bitLen (n : Nat) : Nat := if n = 0 then 0 else Nat.log2 n + 1

/-- x ÷ 2ⁿ rounded to nearest, ties to even (R41). -/
def shrRne (x : Int) (n : Nat) : Int :=
  let d : Int := (2 : Int) ^ n
  let q := x.fdiv d
  let r := x.fmod d
  if 2 * r < d then q else if 2 * r > d then q + 1 else if q % 2 = 0 then q else q + 1

/-- Outcome of one output (R41, R43, R66). -/
structure OutRes where
  val : Int
  sat : Bool
  bxo : Bool
  unf : Bool
  w   : Nat
  deriving DecidableEq, Repr

/-- Largest and smallest 32-bit sums. -/
def satMax : Int := 0x7FFFFFFF
/-- Smallest 32-bit sum. -/
def satMin : Int := -0x80000000

/-- R41: align the 24-bit column value x by e, add the old word under ACC, saturate. -/
def alignOut (x e : Int) (acc : Bool) (old : Int) : OutRes :=
  let bxo := decide (e > 15) && decide (x ≠ 0)
  let c : Int :=
    if e > 15 then (if x > 0 then satMax else if x < 0 then satMin else 0)
    else if e ≥ 0 then x * 2 ^ e.toNat
    else if e ≥ -24 then shrRne x (-e).toNat
    else 0
  let r := if acc then old + c else c
  let sat := decide (r > satMax) || decide (r < satMin)
  let v := if r > satMax then satMax else if r < satMin then satMin else r
  { val := v, sat := sat, bxo := bxo, unf := decide (e < -24)
    w := if sat ∧ bxo then max (bitLen r.natAbs) (bitLen x.natAbs + e.toNat)
         else if sat then bitLen r.natAbs else if bxo then bitLen x.natAbs + e.toNat else bitLen v.natAbs }

/-- Watermark kept in 6 bits (R66): one above 63 is kept as 63 (DESIGN CHOICE, log 233: the spec is silent). -/
def wCap (w : Nat) : Nat := min w 63

/-- OR an output's flags into ESTAT and the UNF count (R42, R43, R66). -/
def Core.noteOut (k : Core) (o : OutRes) : Core :=
  { k with
    sat := k.sat || o.sat
    bxo := k.bxo || o.bxo
    wmark := max k.wmark (wCap o.w)
    unf := if o.unf then satInc k.unf else k.unf }

/-- Clear SAT, BXO, PAR, RES, UND and W (R79, R92). -/
def Core.clearFlags (k : Core) : Core :=
  { k with sat := false, bxo := false, par := false, res := false, und := false, wmark := 0 }

/-- ESTAT as special register 0x002 reads it (R101). -/
def Core.estat (k : Core) : Word :=
  BitVec.ofNat 32 (k.sat.toNat + 2 * k.bxo.toNat + 4 * k.par.toNat + 8 * k.res.toNat + 16 * k.und.toNat
    + 256 * (k.wmark % 64))

/-- Flag word of R99: SAT, BXO and the maximum W. -/
def flagWord (sat bxo : Bool) (w : Nat) : Word := BitVec.ofNat 32 (sat.toNat + 2 * bxo.toNat + 256 * (w % 64))

/-! ### Cluster registers of core events -/

/-- Set status bits of a word and its LAST_CORE field at [14:8]. -/
def statLast (st : Word) (bits : Word) (pos : Nat) : Word :=
  (st &&& ~~~(0x7F00 : Word)) ||| bits ||| BitVec.ofNat 32 (pos * 256)

/-- What an event of class `cls` at core position `pos` does to its cluster's registers
(R46, R137, R162, R184). -/
def Cluster.note (u : Cluster) (cls pos : Nat) : Cluster :=
  if cls = 0x01 then { u with engStat := statLast u.engStat 0x4 pos }
  else if cls = 0x02 then { u with engStat := statLast u.engStat 0x8 pos }
  else if cls = 0x03 then { u with engStat := statLast u.engStat 0x10 pos }
  else if cls = 0x0D then { u with padStat := statLast u.padStat 0x1 pos, padCe := satInc u.padCe }
  else if cls = 0x0E then { u with padStat := statLast u.padStat 0x2 pos, padUe := satInc u.padUe }
  else if cls = 0x0F then { u with padStat := statLast u.padStat 0x8 pos }
  else if cls = 0x10 then { u with vltStat := vLast u.vltStat 0x1 pos, vltCe := satInc u.vltCe }
  else if cls = 0x11 then { u with vltStat := vLast u.vltStat 0x2 pos, vltUe := satInc u.vltUe }
  else if cls = 0x12 then { u with vltStat := vLast u.vltStat 0x4 pos, vltUe := satInc u.vltUe }
  else if cls = 0x16 then { u with vltStat := vLast u.vltStat 0x8 pos }
  else if cls = 0x17 then { u with vltStat := vLast u.vltStat 0x10 pos }
  else if cls = 0x18 then { u with latStat := statLast u.latStat 0x1 pos, missCnt := satInc u.missCnt }
  else if cls = 0x19 then { u with latStat := statLast u.latStat 0x2 pos, chkCnt := satInc u.chkCnt }
  else if cls = 0x1C then { u with treStat := statLast u.treStat 0x1 pos, treChk := satInc u.treChk }
  else if cls = 0x1D then { u with treStat := statLast u.treStat 0x2 pos }
  else if cls = 0x1F then { u with treStat := statLast u.treStat 0x4 pos }
  else u
where
  /-- RGN_CL_VLT_STAT keeps LAST_CORE at [28:22] (R137). -/
  vLast (st bits : Word) (pos : Nat) : Word :=
    (st &&& ~~~(0x1FC00000 : Word)) ||| bits ||| BitVec.ofNat 32 (pos * 0x400000)

/-- Classes of which one occurrence keeps the running step from being committed
(R51, R81, R108, R122, R140, R148, R202, R412). -/
def stepClass (cls : Nat) : Bool :=
  [0x01, 0x02, 0x03, 0x08, 0x0A, 0x0E, 0x11, 0x12, 0x14, 0x18, 0x19].contains cls

/-- Raise an event of core c: its cluster's registers, the record with the core's fields (R422, R423), and the
step's fault list when the class keeps the step from committing. -/
def State.coreEvent (s : State) (c cls : Nat) (spec : Fields) : State :=
  let s := s.updCluster (c / 72) fun u => u.note cls (c % 72)
  let s := s.raise (s.coreEv c cls spec)
  if stepClass cls then s.noteStepFault c cls else s

/-- As `coreEvent`, with the step's fault list touched only where `fault` says so. -/
def State.coreEventIf (s : State) (fault : Bool) (c cls : Nat) (spec : Fields) : State :=
  let s := (s.updCluster (c / 72) fun u => u.note cls (c % 72)).raise (s.coreEv c cls spec)
  if fault then s.noteStepFault c cls else s

end Sys2Proof.Machine
end

