-- ==== Sys2Proof/Machine/Units.lean ====
section
/-!
DEFINITION. What the core's units share: debug hazards (R104, R218), address faults (R77, R111), watched pad writes,
circular region advances (R114, R115), and arrival at a barrier (R178).
-/
namespace Sys2Proof.Machine

/-- Report a debug hazard of a core of a debug partition, unless its kind is masked (R104, R217, R218).
`tail` carries PPC in its low 16 bits and SLOT above; `pc` is given where the instruction that meets the hazard is not the one
at the program counter. -/
def State.hazard (s : State) (c kind unit addr pcycle tail : Nat) (pc : Option Nat := none) : State :=
  match s.partOf c with
  | none => s
  | some p =>
    let pt := s.part p
    if pt.debug && !(pt.hazMask.getLsbD kind) then
      let k := s.core c
      let (lx, ly) := (s.logXY c).getD (0, 0)
      s.coreEvent c 0x0C (sp [(0, 1, kind), (1, 1, unit), (2, 2, pc.getD k.pc.toNat), (4, 1, lx), (5, 1, ly),
        (6, 2, k.cycle - k.frameStart), (8, 4, k.cycle), (12, 4, addr), (16, 4, pcycle), (20, 4, tail)])
    else s

/-- DBGMARK writes a trace marker to the region agent in a debug bit-stream; production discards it (R101). -/
def State.dbgMark (s : State) (c : Nat) (x : Word) : State :=
  match s.partOf c with
  | none => s
  | some p => if (s.part p).debug then s.agentNote (regionOf c) x.toNat else s

/-- Class 0x09 with its cause (R77, R111, R424), from a unit and, where it acts later than its instruction, with that
instruction's PC; a bank not ON also sets BANKOFF. -/
def State.addrFault (s : State) (c cause addr : Nat) (unit : Nat := 3) (pc : Option Nat := none) : State :=
  let s := s.coreEvent c 0x09 (sp [(0, 1, cause), (4, 2, pc.getD (s.core c).pc.toNat), (8, 4, addr)])
  if cause = 1 then
    (s.updCluster (c / 72) fun u => { u with padStat := statLast u.padStat 4 (c % 72) }).hazard c 10 unit addr 0 0 pc
  else s

/-- Keep what the bytes at some addresses, and the shadow of some lines, hold until a write to them lands (R85, R104). -/
def Core.watch (k : Core) (addrs lines : List Nat) (lands pc unit : Nat) : Core :=
  { k with padWrites := (k.padWrites.filter fun p => decide (k.frameStart ≤ p.lands)) ++
      [⟨addrs.map fun a => (a, tget k.pad 0 a), lines.map fun l => (l, tget k.shadow 0 l), lands, pc, unit⟩] }

/-- Two runs of bytes overlap. -/
def overlaps (a n b m : Nat) : Bool := decide (a < b + m) && decide (b < a + n)
/-- A write to bytes of [addr, addr + len) that has not landed at a cycle, with the cycle at which it lands and its producer's
PC: a watched write, an output of the engine, a raw vault transfer, or a lattice delivery (R85, R104). A vault transfer has
no cycle of its own. -/
def Core.unlanded (k : Core) (addr len t : Nat) : Option (Nat × Nat) :=
  let w := (k.padWrites.find? fun p => decide (t < p.lands) && p.cells.any fun e => decide (addr ≤ e.1) && decide (e.1 < addr + len)).map
    fun p => (p.lands, p.pc)
  let g := (k.eng.findSome? fun o => (List.range o.v).findSome? fun v =>
    let n := foldOuts o.fold
    let lands := o.t0 + o.b * (v + 1) + 6
    if o.written ≤ v ∧ t < lands ∧ overlaps addr len (0x50000 + (o.pAddr + 4 * v * n) % 0x10000) (4 * n) then some (lands, o.pc) else none)
  let q := (k.vq.find? fun o => decide (o.kind = .vrd) && overlaps addr len o.addr (64 * o.count)).map fun _ => (0, 0)
  let d := (k.desc.find? fun x => !x.send && decide (t < k.frameStart + x.slot + 2) && overlaps addr len x.addr (if x.two then 128 else 64)).map
    fun x => (k.frameStart + x.slot + 2, x.pc)
  w <|> g <|> q <|> d

/-- A read of bytes whose producer's write has not landed is a debug hazard of the unit that reads (R85, R104). -/
def State.readHazard (s : State) (c unit addr len t : Nat) (pc : Option Nat := none) : State :=
  match (s.core c).unlanded addr len t with
  | some (lands, by_) => s.hazard c 1 unit addr lands (by_ % 65536) pc
  | none => s

/-- Write bytes at a list of addresses. -/
def Core.putAt (k : Core) (addrs : List Nat) (bs : List Byte) : Core :=
  { k with pad := (addrs.zip bs).foldl (fun m e => tset m 0 e.1 e.2) k.pad }

/-- Store bytes at core byte addresses (R77, R105, R111): with an address in the reserved range nothing is written; bytes of
a bank that is not ON are not; either raises class 0x09. The write is watched until it lands. -/
def State.storeAt (s : State) (c unit : Nat) (addrs : List Nat) (bs : List Byte) (lands : Nat) (pc : Option Nat := none) : State :=
  let banks := (s.cluster (c / 72)).banks
  let by_ := pc.getD (s.core c).pc.toNat
  match addrs.find? fun a => (accessCause banks a 1).isSome with
  | none => s.updCore c fun k => (k.watch addrs [] lands by_ unit).putAt addrs bs
  | some a =>
    match addrs.find? fun a => decide (accessCause banks a 1 = some 0) with
    | some a => s.addrFault c 0 a unit pc
    | none =>
      let put := (addrs.zip bs).filter fun e => (accessCause banks e.1 1).isNone
      (s.addrFault c 1 a unit pc).updCore c fun k =>
        (k.watch (put.map (·.1)) [] lands by_ unit).putAt (put.map (·.1)) (put.map (·.2))
/-- Load bytes from core byte addresses as they stand at a cycle (R77, R85, R111): zeros with an address in the reserved
range, 0 for a byte of a bank that is not ON; either raises class 0x09. DEDUCED, log 205: R77 names LD, ST, LDV, STV and PCPY;
every other access that meets the reserved range does the same. -/
def State.loadAt (s : State) (c unit : Nat) (addrs : List Nat) (t : Nat) (pc : Option Nat := none) : State × List Byte :=
  let banks := (s.cluster (c / 72)).banks
  let k := (s.core c).padAt t
  match addrs.find? fun a => (accessCause banks a 1).isSome with
  | none => (s.readHazard c unit (addrs.headD 0) addrs.length t pc, addrs.map fun a => tget k.pad 0 a)
  | some a =>
    match addrs.find? fun a => decide (accessCause banks a 1 = some 0) with
    | some a => (s.addrFault c 0 a unit pc, List.replicate addrs.length 0)
    | none => (s.addrFault c 1 a unit pc, addrs.map fun a => if (accessCause banks a 1).isNone then tget k.pad 0 a else 0)
/-- n addresses from `addr` on, modulo 2²⁰ (R76). -/
def linear (addr n : Nat) : List Nat := (List.range n).map fun i => (addr + i) % 0x100000
/-- n addresses from `addr` on within one pad, wrapping at its end (R77). -/
def padWrap (base size addr n : Nat) : List Nat := (List.range n).map fun i => base + (addr - base + i) % size

/-- Store bytes from an address on. -/
def State.padStore (s : State) (c unit addr : Nat) (bs : List Byte) (lands : Nat) : State :=
  s.storeAt c unit (linear addr bs.length) bs lands
/-- As `padStore` for an operand that lies in the A-pad: addresses wrap at its end (R77). -/
def State.padStoreA (s : State) (c unit addr : Nat) (bs : List Byte) (lands : Nat) : State :=
  s.storeAt c unit (padWrap 0 0x20000 addr bs.length) bs lands

/-- Write to a circular region of a core (R113); bytes of a bank not ON go nowhere, with an address fault (R111). -/
def State.circWrite (s : State) (c p r at_ : Nat) (bs : List Byte) (unit : Nat) : State :=
  let banks := (s.cluster (c / 72)).banks
  let s := match (s.core c).circOff banks p r at_ bs.length with
    | some a => s.addrFault c 1 a unit
    | none => s
  s.updCore c fun k => k.putCirc banks p r at_ bs

/-- Load n bytes from an address on. -/
def State.padLoad (s : State) (c unit addr n t : Nat) (pc : Option Nat := none) : State × List Byte :=
  s.loadAt c unit (linear addr n) t pc
/-- Class 0x0D or 0x0E at an offset of a pad, coded as in R424; the syndrome is a free value (R107). -/
def State.padEvent (s : State) (c cls pad off bank : Nat) : State :=
  let (s, y) := s.draw
  s.coreEvent c cls (sp [(0, 1, pad), (1, 1, bank), (8, 4, off), (12, 1, y % 256)])

/-- Pad of a core byte address, coded as in R97. -/
def padOf (addr : Nat) : Nat := if addr < 0x20000 then 1 else if addr < 0x50000 then 0 else 2
/-- Address of the word a pad error of an access from `addr` on lies in. -/
def errAddr (addr : Nat) (e : PadErr) : Nat := addr / 8 * 8 + 8 * errWord e
/-- Check errors met by a read of n bytes at an address (R107). -/
def State.padCheck (s : State) (c addr n : Nat) (es : List PadErr) : State :=
  es.foldl (fun s e =>
    let pad := padOf (errAddr addr e)
    let off := (errAddr addr e - padBase pad) % padSize pad
    match if 8 * errWord e < addr % 8 + n then errCls e pad else none with
    | some cls => s.padEvent c cls pad off (off / 0x4000)
    | none => s) s
/-- The bytes read, as a number, as delivered (R107). -/
def padDeliver (addr n : Nat) (es : List PadErr) (x : Nat) : Nat :=
  (x ^^^ es.foldl (fun m e => m ^^^ errData e (padOf (errAddr addr e)) * 2 ^ (64 * errWord e)) 0 / 2 ^ (8 * (addr % 8))) % 2 ^ (8 * n)
/-- Bytes as a read of byte addresses delivers them, its checks raised; a read that meets a bank not ON or the reserved range
has nothing to check (R107, R111). -/
def State.readAt (s : State) (c unit : Nat) (addrs : List Nat) (t : Nat) (es : List PadErr) (pc : Option Nat := none) : State × List Byte :=
  let addr := addrs.headD 0
  let n := addrs.length
  let on := addrs.all fun a => (accessCause (s.cluster (c / 72)).banks a 1).isNone
  let (s, bs) := s.loadAt c unit addrs t pc
  if on && !es.isEmpty then (s.padCheck c addr n es, leBytes n (padDeliver addr n es (leNat bs))) else (s, bs)
/-- As `readAt`, for n bytes from an address on. -/
def State.padRead (s : State) (c unit addr n t : Nat) (es : List PadErr) (pc : Option Nat := none) : State × List Byte :=
  s.readAt c unit (linear addr n) t es pc

/-- Cycle from which a descriptor is free, where it is known (R98): an LSEND is in use until the cycle after its pad read, an LRECV
until its last write has landed. -/
def State.descFree (s : State) (c : Nat) (d : LatDesc) : Option Nat :=
  if d.send then some (if d.slot < 65535 then (s.region (regionOf c)).net.count + d.slot + 1 else 0)
  else if d.free = 0 then none else some d.free
/-- A descriptor is in use at cycle t. -/
def State.descBusy (s : State) (c t : Nat) (d : LatDesc) : Bool :=
  match s.descFree c d with
  | none => true
  | some f => decide (t < f)
/-- Descriptors of a core in use at cycle t. -/
def State.descUsed (s : State) (c t : Nat) : Nat := ((s.core c).desc.filter (s.descBusy c t)).length
/-- The descriptors of a core have done their work: LSENDs lie behind the region's count, LRECVs have their last lane. -/
def State.descDone (s : State) (c : Nat) : Bool :=
  (s.core c).desc.all fun d => match s.descFree c d with
    | none => false
    | some f => !d.send || decide (f ≤ (s.region (regionOf c)).net.exec)
/-- Cycle from which the LRECVs of a core that have their last lane are free. -/
def Core.recvsFree (k : Core) : Nat := k.desc.foldl (fun m d => max m d.free) 0

/-- Advance a circular region's head (publish) or tail (release), clamped at the limit with class 0x0F (R115). -/
def State.circAdvance (s : State) (c p r : Nat) (head : Bool) (n pc : Nat) : State :=
  let k := s.core c
  let d := k.circOf p r
  let lim := if head then d.size - d.fill else d.fill
  let m := min n lim
  let d' : Circ := if head then { d with head := (d.head + m) % 2 ^ 21 } else { d with tail := (d.tail + m) % 2 ^ 21 }
  let s := s.setCore c (k.setCirc p r d')
  if n > lim then
    s.coreEvent c 0x0F (sp [(0, 1, p), (1, 1, r), (2, 1, head.toNat), (4, 2, pc), (8, 4, n), (12, 4, d.fill)])
  else s

/-- A core arrives at a barrier: one BARA to its cluster port, with its flags under FLG (R66, R99, R178). A run on
the 8-bit activation path reports no flag (R68, R69). -/
def State.barArrive (s : State) (c bar : Nat) (flg : Bool) : State :=
  let k := s.core c
  let quiet := (s.part ((s.partOf c).getD 0)).act8
  let m : BarMsg := { sw := c / 72, from_ := 10000 + c, part := (s.partOf c).getD 0, bar := bar, sat := flg && k.sat && !quiet, bxo := flg && k.bxo && !quiet
                      w := if flg then k.wmark else 0, bad := false }
  { s with tree := { s.tree with barMsgs := s.tree.barMsgs ++ [m] } }

end Sys2Proof.Machine
end

