-- ==== Sys2Proof/Machine/Fp.lean ====
section
/-!
DEFINITION. Vector arithmetic (R93): binary32 with round to nearest even, subnormals flushed to zero, the quiet NaN
0x7FC0_0000, and the helper functions within their bounds. Finite values are exact dyadic numbers m × 2ᵉ until the
one rounding at the end.
-/
namespace Sys2Proof.Machine

/-- A decoded value: NaN, infinity, or ± m × 2ᵉ. -/
inductive Fv where
  | nan
  | inf (neg : Bool)
  | fin (neg : Bool) (m : Nat) (e : Int)
  deriving DecidableEq, Repr

/-- The quiet NaN of R93. -/
def qNaN : Word := 0x7FC00000
/-- Signed zero. -/
def fZero (neg : Bool) : Word := if neg then 0x80000000 else 0
/-- Signed infinity. -/
def fInf (neg : Bool) : Word := if neg then 0xFF800000 else 0x7F800000

/-- Decode binary32, subnormals flushed to zero with the sign kept (R93). -/
def fDec (x : Word) : Fv :=
  let n := x.toNat
  let neg := n ≥ 2 ^ 31
  let ef : Nat := n / 2 ^ 23 % 256
  let f := n % 2 ^ 23
  if ef = 255 then (if f = 0 then .inf neg else .nan)
  else if ef = 0 then .fin neg 0 0
  else .fin neg (2 ^ 23 + f) ((ef : Int) - 150)

/-- m ÷ 2ⁿ rounded to nearest, ties to even. -/
def natShrRne (m n : Nat) : Nat :=
  let q := m / 2 ^ n
  let r := m % 2 ^ n
  if n = 0 then m
  else if 2 * r < 2 ^ n then q else if 2 * r > 2 ^ n then q + 1 else q + q % 2

/-- ± m × 2ᵉ rounded once to binary32; results below the normal range flush to zero (R93). -/
def fEnc (neg : Bool) (m : Nat) (e : Int) : Word :=
  if m = 0 then fZero neg
  else
    let len := bitLen m
    let q := if len ≤ 24 then m * 2 ^ (24 - len) else natShrRne m (len - 24)
    let ex : Int := e + (len : Int) - 1 + (if q = 2 ^ 24 then 1 else 0)
    let sig := if q = 2 ^ 24 then 2 ^ 23 else q
    if ex > 127 then fInf neg
    else if ex < -126 then fZero neg
    else BitVec.ofNat 32 ((if neg then 2 ^ 31 else 0) + (ex + 127).toNat * 2 ^ 23 + (sig - 2 ^ 23))

/-- Signed integer significand at exponent `lo`. -/
def fInt (neg : Bool) (m : Nat) (e lo : Int) : Int :=
  let v : Int := (m : Int) * 2 ^ (e - lo).toNat
  if neg then -v else v

/-- Sum of two exact values, rounded once. An exact zero sum is +0 unless both are −0. -/
def dyAdd (an : Bool) (am : Nat) (ae : Int) (bn : Bool) (bm : Nat) (be : Int) : Word :=
  if am = 0 ∧ bm = 0 then fZero (an && bn)
  else if am = 0 then fEnc bn bm be
  else if bm = 0 then fEnc an am ae
  else
    let lo := min ae be
    let v := fInt an am ae lo + fInt bn bm be lo
    if v = 0 then fZero false else fEnc (decide (v < 0)) v.natAbs lo

/-- VADD of one lane. -/
def fAdd (x y : Word) : Word :=
  match fDec x, fDec y with
  | .nan, _ => qNaN
  | _, .nan => qNaN
  | .inf a, .inf b => if a = b then fInf a else qNaN
  | .inf a, _ => fInf a
  | _, .inf b => fInf b
  | .fin an am ae, .fin bn bm be => dyAdd an am ae bn bm be

/-- Sign changed. -/
def fNeg (x : Word) : Word := x ^^^ 0x80000000
/-- VSUB of one lane. -/
def fSub (x y : Word) : Word :=
  match fDec y with
  | .nan => qNaN
  | _ => fAdd x (fNeg y)

/-- VMUL of one lane. -/
def fMul (x y : Word) : Word :=
  match fDec x, fDec y with
  | .nan, _ => qNaN
  | _, .nan => qNaN
  | .inf a, .inf b => fInf (a != b)
  | .inf a, .fin b m _ => if m = 0 then qNaN else fInf (a != b)
  | .fin a m _, .inf b => if m = 0 then qNaN else fInf (a != b)
  | .fin an am ae, .fin bn bm be => fEnc (an != bn) (am * bm) (ae + be)

/-- VFMA of one lane: x × y + z rounded once. -/
def fFma (x y z : Word) : Word :=
  match fDec x, fDec y, fDec z with
  | .fin an am ae, .fin bn bm be, .fin cn cm ce => dyAdd (an != bn) (am * bm) (ae + be) cn cm ce
  | .fin _ _ _, .fin _ _ _, .inf c => fInf c
  | _, _, .nan => qNaN
  | _, _, _ => fAdd (fMul x y) z

/-- Order of two finite or infinite values: −1, 0, 1. -/
def fOrd (x y : Word) : Option Int :=
  match fDec x, fDec y with
  | .nan, _ => none
  | _, .nan => none
  | .inf a, .inf b => some (if a = b then 0 else if a then -1 else 1)
  | .inf a, _ => some (if a then -1 else 1)
  | _, .inf b => some (if b then 1 else -1)
  | .fin an am ae, .fin bn bm be =>
    let lo := min ae be
    some (Int.sign (fInt an am ae lo - fInt bn bm be lo))

/-- Flush a subnormal, keep anything else. -/
def fFlush (x : Word) : Word :=
  match fDec x with
  | .fin n 0 _ => fZero n
  | .nan => qNaN
  | _ => x

/-- VMAX (`mx`) and VMIN of one lane: a NaN input yields the other input (R95). -/
def fPick (mx : Bool) (x y : Word) : Word :=
  match fOrd x y with
  | none =>
    match fDec x, fDec y with
    | .nan, .nan => qNaN
    | .nan, _ => fFlush y
    | _, _ => fFlush x
  | some o =>
    if o = 0 then (if fFlush x = fFlush y ∨ Config.maxOfZeros x y then fFlush x else fFlush y)
    else if (o > 0) = (mx = true) then fFlush x else fFlush y

/-- VCMP of one lane: FN 0 EQ, 1 LT, 2 LE, 3 NE; a NaN compares false except under NE (R95). -/
def fCmp (fn : Nat) (x y : Word) : Bool :=
  match fOrd x y with
  | none => decide (fn = 3)
  | some o => if fn = 0 then decide (o = 0) else if fn = 1 then decide (o < 0)
              else if fn = 2 then decide (o ≤ 0) else decide (o ≠ 0)

/-! ### Helper functions

Each reference value is a fixed-point number with 200 fraction bits. The result is the candidate of `Config` where it
lies within the bound of R93 about the reference, and the reference rounded otherwise. -/

/-- 2²⁰⁰. -/
def fxOne : Int := 2 ^ 200
/-- ln 2 × 2²⁰⁰. -/
def fxLn2 : Int := 1113844574712631719546256151097547306333272293549090750737802
/-- 2²⁰⁰ ÷ √(2π). -/
def fxInvSqrt2Pi : Int := 641075527840499933413004623679830672196624219171451520342208

/-- A finite value as fixed point. -/
def toFx (neg : Bool) (m : Nat) (e : Int) : Int :=
  let v : Int := if e + 200 ≥ 0 then (m : Int) * 2 ^ (e + 200).toNat else (m : Int) / 2 ^ (-(e + 200)).toNat
  if neg then -v else v

/-- Taylor sum of eʳ: `fuel` terms from the k-th term `t` on. -/
def expTail (r : Int) : Nat → Nat → Int → Int
  | 0, _, _ => 0
  | n + 1, k, t => t + expTail r n (k + 1) (t * r / fxOne / (k + 1))

/-- eˣ of a fixed-point x as (mantissa in fixed point, power of two): range reduction by ln 2. -/
def fxExp (x : Int) : Int × Int :=
  let k := x.fdiv fxLn2
  (expTail (x - k * fxLn2) 48 0 fxOne, k)

/-- Exact binary32 value as fixed point relative to 2^sh: 2²⁰⁰ × value ÷ 2^sh, for comparing tiny results. -/
def wordFx (x : Word) (sh : Int) : Option Int :=
  match fDec x with
  | .fin n m e => some (toFx n m (e - sh))
  | _ => none

/-- Exponent of the last place of a binary32 result. -/
def ulpExp (x : Word) : Int :=
  let ef : Nat := x.toNat / 2 ^ 23 % 256
  if ef = 0 then -149 else (ef : Int) - 150

/-- The candidate where it is within `n` ulp of the reference `m` × 2^(sh − 200), else the reference rounded. -/
def within (cand : Word) (neg : Bool) (m : Nat) (sh : Int) (n : Nat) : Word :=
  let r := fEnc neg m (sh - 200)
  match wordFx cand sh with
  | none => r
  | some c =>
    let ref : Int := if neg then -(m : Int) else m
    let u : Int := toFx false 1 (ulpExp r - sh)
    if (c - ref).natAbs ≤ n * u.toNat ∧ fFlush cand = cand then cand else r

/-- VEXP of one lane (R93): above 88.72 gives +∞, below −87.33 gives 0. -/
def fExp (x : Word) : Word :=
  match fDec x with
  | .nan => qNaN
  | .inf n => if n then 0 else fInf false
  | .fin n m e =>
    let v := toFx n m e
    if v > 8872 * fxOne / 100 then fInf false
    else if v < -(8733 * fxOne / 100) then 0
    else
      let (y, k) := fxExp v
      within (Config.vexp x) false y.toNat k 2

/-- VRCP of one lane (R93): ±0 gives ±∞. -/
def fRcp (x : Word) : Word :=
  match fDec x with
  | .nan => qNaN
  | .inf n => fZero n
  | .fin n m e =>
    if m = 0 then fInf n
    else within (Config.vrcp x) n (2 ^ 260 / m) (-(e + 60)) 1

/-- VRSQ of one lane (R93): +0 gives +∞, negative inputs give NaN. -/
def fRsq (x : Word) : Word :=
  match fDec x with
  | .nan => qNaN
  | .inf n => if n then qNaN else 0
  | .fin n m e =>
    if m = 0 then (if n then Config.vrsqNegZero else fInf false)
    else if n then qNaN
    else
      let odd := e % 2 ≠ 0
      let m' := if odd then 2 * m else m
      let e' := if odd then e - 1 else e
      within (Config.vrsq x) false (Nat.sqrt (2 ^ 480 / m')) (-(e' / 2) - 40) 2

/-- Series Σ x^(2n+1) ÷ (2n+1)!! of the normal integral, `fuel` terms. -/
def phiTail (x2 : Int) : Nat → Nat → Int → Int
  | 0, _, _ => 0
  | n + 1, k, t => t + phiTail x2 n (k + 1) (t * x2 / fxOne / (2 * k + 3))

/-- Φ(x) × 2²⁰⁰ for |x| ≤ 14. -/
def fxPhi (x : Int) : Int :=
  let x2 := x * x / fxOne
  let (y, k) := fxExp (-(x2 / 2))
  let q := y * phiTail x2 420 0 x / fxOne * fxInvSqrt2Pi / fxOne
  fxOne / 2 + (if k ≥ 0 then q * 2 ^ k.toNat else q / 2 ^ (-k).toNat)

/-- The candidate where it meets the bound of VACT: relative 2⁻¹⁹ for |x| ≥ 2⁻¹⁰, absolute 2⁻²⁹ below. -/
def actBound (cand : Word) (x ref : Int) : Word :=
  let r := fEnc (decide (ref < 0)) ref.natAbs (-200)
  match wordFx cand 0 with
  | none => r
  | some c =>
    let lim : Nat := if x.natAbs ≥ 2 ^ 190 then ref.natAbs / 2 ^ 19 else 2 ^ 171
    if (c - ref).natAbs ≤ lim ∧ fFlush cand = cand then cand else r

/-- VACT of one lane: FN 0 GELU in erf form, 1 SiLU (R93). -/
def fAct (fn : Nat) (x : Word) : Word :=
  match fDec x with
  | .nan => qNaN
  | .inf _ => Config.vactInf fn x
  | .fin n m e =>
    let v := toFx n m e
    let c := Config.vact fn x
    if fn = 0 then
      if v > 14 * fxOne then actBound c v v
      else if v < -(14 * fxOne) then fZero true
      else actBound c v (v * fxPhi v / fxOne)
    else
      if v > 120 * fxOne then actBound c v v
      else if v < -(120 * fxOne) then fZero true
      else
        let (y, k) := fxExp (-v)
        let den := fxOne + (if k ≥ 0 then y * 2 ^ k.toNat else y / 2 ^ (-k).toNat)
        actBound c v (v * fxOne / den)

/-! ### BF16 -/

/-- BF16 expanded exactly (R97). -/
def bfToF (h : Nat) : Word := BitVec.ofNat 32 (h % 65536 * 65536)
/-- FP32 rounded to BF16, nearest, ties to even (R97). -/
def fToBf (x : Word) : Nat :=
  match fDec x with
  | .nan => 0x7FC0
  | _ =>
    let n := x.toNat
    let s := if n ≥ 2 ^ 31 then 2 ^ 15 else 0
    s + min (natShrRne (n % 2 ^ 31) 16) 0x7F80

end Sys2Proof.Machine
end

