-- ==== Sys2Proof/Machine/Engine.lean ====
section
/-!
DEFINITION. The bit-serial engine (R25 to R45): what an issued operation latches, the column values it forms, and the
writing of one vector's outputs. Plane k of vector v is read at t₀ + b × v + k; `State.engCatch` reads every plane due by a cycle.
-/
namespace Sys2Proof.Machine

/-- Weight width of a WID code (R48). -/
def widBits (w : Nat) : Nat := if w = 7 then 8 else w + 1
/-- Bytes a tile of width b takes in the W-pad: b planes of 512 B and the shift vector. -/
def tileBytes (b : Nat) : Nat := 512 * b + 64
/-- Activations per vector for a fold (R36). -/
def foldIns (f : Nat) : Nat := if f = 0 then 64 else if f = 1 then 128 else if f = 2 then 256 else if f = 3 then 32 else 16
/-- Logical input that cell (r, c) multiplies (R36). -/
def foldIn (f r c : Nat) : Nat :=
  if f = 0 then r else if f = 1 then r + 64 * (c / 32) else if f = 2 then r + 64 * (c / 16)
  else if f = 3 then r % 32 else r % 16
/-- Logical output that cell (r, c) adds to (R36). -/
def foldOut (f r c : Nat) : Nat :=
  if f = 0 then c else if f = 1 then c % 32 else if f = 2 then c % 16
  else if f = 3 then c + 64 * (r / 32) else c + 64 * (r / 16)
/-- The lowest physical column that forms output j: its shift entry and column mask apply (R38). -/
def outCol (j : Nat) : Nat := j % 64

/-- Weight of cell (r, c) from the 64-bit row segments of the b planes: two's complement for b ≥ 2, ±1 in 1-bit mode
(R26 to R29). `rows k r` is row r of plane k. -/
def cellWeight (b : Nat) (rows : Nat → Nat → Nat) (r c : Nat) : Int :=
  if b = 1 then (if (rows 0 r).testBit c then 1 else -1)
  else (List.range b).foldl (fun a k =>
    if (rows k r).testBit c then (if k + 1 = b then a - 2 ^ k else a + 2 ^ k) else a) 0

/-- Column value of output j: Σ over its unmasked cells of activation × weight (R26, R36, R37, R39). -/
def colValue (o : EngOp) (acts : List Int) (rows : Nat → Nat → Nat) (j : Nat) : Int :=
  (List.range 64).foldl (fun acc r =>
    if o.rmask.getLsbD r then
      (List.range 64).foldl (fun acc c =>
        if foldOut o.fold r c = j ∧ o.cmask.getLsbD c then
          acc + acts.getD (foldIn o.fold r c) 0 * cellWeight o.b rows r c
        else acc) acc
    else acc) 0

/-- Flipped data bits of activation byte i of vector v (R107). -/
def EngOp.actFlip (o : EngOp) (v i : Nat) : Nat :=
  o.fs.foldl (fun m f => match f with
    | .word u e => if u = v ∧ errWord e = i / 8 then m ^^^ errData e 1 / 2 ^ (8 * (i % 8)) % 256 else m
    | _ => m) 0
/-- Flipped bits of vector v's slice exponent in the shadow. -/
def EngOp.shadowFlip (o : EngOp) (v : Nat) : Byte :=
  o.fs.foldl (fun m f => match f with
    | .shadow u x => if u = v then m ^^^ x else m
    | _ => m) 0
/-- Flips of row segment `seg` of a plane as vector v reads it, parity bit included (R44). -/
def EngOp.segFlip (o : EngOp) (v plane seg : Nat) : Nat :=
  o.fs.foldl (fun m f => match f with
    | .parity u p g x => if u = v ∧ p = plane ∧ g = seg then m ^^^ x.toNat else m
    | _ => m) 0
/-- What wrong quarter sums of vector v add to output j (R26, R28, R36, R45): a quarter q of a column is its rows 16 q to
16 q + 15, and its sum carries the weight of its plane. -/
def EngOp.sumErr (o : EngOp) (v j : Nat) : Int :=
  o.fs.foldl (fun a f => match f with
    | .residue plane q u col delta =>
      if u = v ∧ plane < o.b ∧ q < 4 ∧ col < 64 ∧ o.cmask.getLsbD col = true ∧ foldOut o.fold (16 * q) col = j then
        a + (if o.b = 1 then 2 * delta else if plane + 1 = o.b then -(delta * 2 ^ plane) else delta * 2 ^ plane)
      else a
    | _ => a) 0

/-- Activations and slice exponent of vector v, read from the A-pad and its shadow (R30, R41, R78). -/
def EngOp.readVec (o : EngOp) (k : Core) (v : Nat) : EngVec :=
  let line := (o.aAddr + v * o.stride) % 0x20000
  { acts := (List.range (foldIns o.fold)).map fun i =>
      (tget k.pad 0 ((line + i) % 0x20000) ^^^ BitVec.ofNat 8 (o.actFlip v i)).toInt
    slice := (tget k.shadow 0 (line / 64) ^^^ o.shadowFlip v).toNat, planes := [] }
/-- The 64 row segments of plane p as vector v reads them from the W-pad. -/
def EngOp.readPlane (o : EngOp) (k : Core) (v p : Nat) : List Nat :=
  (List.range 64).map fun r => leNat (k.circBytes 0 o.wreg (o.tile + 512 * p + 8 * r) 8) ^^^ o.segFlip v p r % 2 ^ 64
/-- Column value and effective shift of every output of vector v, once its last plane is read (R26, R41); `k` gives the shift
vector. DESIGN CHOICE, log 203: it is read in that cycle. -/
def EngOp.vecOut (o : EngOp) (k : Core) (x : EngVec) (v : Nat) : List (Int × Int) :=
  let rows := fun p r => (x.planes.getD p []).getD r 0
  (List.range (foldOuts o.fold)).map fun j =>
    let sh : Int := ((k.circBytes 0 o.wreg (o.tile + 512 * o.b + outCol j) 1).headD 0).toInt
    (colValue o x.acts rows j + o.sumErr v j, sh + x.slice - o.eref)
/-- The plane in stage R: with plane 0 its vector is latched, with the last its outputs form (R30, R31). `k`: the core with its
pads as in that cycle. -/
def EngOp.stageR (o : EngOp) (k : Core) : EngOp :=
  let v := o.latched.length
  let p := o.cur.planes.length
  let x := if p = 0 then o.readVec k v else o.cur
  let x := { x with planes := x.planes ++ [o.readPlane k v p] }
  if p + 1 < o.b then { o with cur := x } else { o with cur := ⟨[], 0, []⟩, latched := o.latched ++ [o.vecOut k x v] }

/-- Planes an operation has read, over all its vectors. -/
def EngOp.reads (o : EngOp) : Nat := o.latched.length * o.b + o.cur.planes.length
/-- The W-pad region holds the plane that read n takes; the planes stay in the pad once vector 0 has read them (R30, R35). -/
def EngOp.planeIn (o : EngOp) (k : Core) (n : Nat) : Bool :=
  let c := k.circOf 0 o.wreg
  decide (o.b ≤ n) || decide ((o.tile + 2 ^ 21 - c.tail % 2 ^ 21) % 2 ^ 21 + 512 * (n + 1) ≤ c.fill)
/-- Read every plane of an operation that is due by cycle t and in the W-pad, each with the pads as they stand in its own cycle
t₀ + b × v + k (R31). -/
def latchOp (k : Core) (banks : Word) (t : Nat) (o : EngOp) : EngOp :=
  (List.range (o.b * o.v)).foldl (fun o n =>
    if o.reads = n ∧ o.t0 + n ≤ t ∧ o.planeIn k n = true then o.stageR ((k.padAt (o.t0 + n)).seen banks) else o) o
/-- The cycle in which the first plane that is not in the W-pad is due at stage R (R35). -/
def Core.planeLate (k : Core) : Option Nat :=
  k.eng.findSome? fun o =>
    if o.released ∨ o.v = 0 then none
    else ((List.range o.b).find? fun n => decide (o.reads ≤ n) && !o.planeIn k n).map (o.t0 + ·)
/-- Address of the first byte an operation reads in a bank not ON: its vectors' activations, then its tile (R111). -/
def EngOp.offRead (o : EngOp) (k : Core) (banks : Word) : Option Nat :=
  let acts := (List.range o.v).flatMap fun v =>
    (List.range ((foldIns o.fold + 63) / 64)).map fun i => (o.aAddr + v * o.stride + 64 * i) % 0x20000
  let tile := (List.range (tileBytes o.b / 64)).map fun i => (k.circOf 0 o.wreg).addr 0 (o.tile + 64 * i)
  (acts ++ tile).find? fun a => (accessCause banks a 1).isSome
/-- Address of the first word of an operation's next outputs that lies in a bank not ON. -/
def EngOp.offWrite (o : EngOp) (banks : Word) (n : Nat) : Option Nat :=
  ((List.range n).filter fun j => o.cmask.getLsbD (outCol j)).map (fun j => 0x50000 + (o.pAddr + 4 * (o.written * n + j)) % 0x10000)
    |>.find? fun a => (accessCause banks a 4).isSome
/-- An engine access to a bank not ON (R111): one address fault for the reads of an operation and one for each vector's outputs. -/
def State.engOff (s : State) (c : Nat) (a : Option Nat) (pc : Option Nat := none) : State :=
  match a with
  | some a => s.addrFault c 1 a 1 pc
  | none => s

/-- A vector due by cycle t whose activations have a write outstanding at its latch: a debug hazard (R85, R104). -/
def State.latchHazards (s : State) (c t : Nat) (o : EngOp) : State :=
  (List.range o.v).foldl (fun s v =>
    if o.reads ≤ o.b * v ∧ o.t0 + o.b * v ≤ t then
      s.readHazard c 1 ((o.aAddr + v * o.stride) % 0x20000) (foldIns o.fold) (o.t0 + o.b * v) o.pc
    else s) s
/-- Read every plane of core c that is due by cycle t (R31). -/
def State.engCatch (s : State) (c t : Nat) : State :=
  ((s.core c).eng.foldl (fun s o => s.latchHazards c t o) s).updCore c fun k =>
    { k with eng := k.eng.map (latchOp k (s.cluster (c / 72)).banks t) }

/-- Every issued operation has written its last output (R92). -/
def Core.engDrained (k : Core) : Bool := k.eng.all fun o => decide (o.v ≤ o.written)

/-- Outputs of a vector that the column mask lets through, with their P-pad addresses (R39, R91). -/
def EngOp.outs (o : EngOp) (outs : List (Int × Int)) : List (Nat × Int × Int) :=
  (outs.zipIdx).filterMap fun (xe, j) =>
    if o.cmask.getLsbD (outCol j) then some (0x50000 + (o.pAddr + 4 * (o.written * outs.length + j)) % 0x10000, xe) else none
/-- Write one vector's outputs: align, accumulate, saturate, store, and gather the flags and counts (R39, R41 to R43). The words
are readable from t₀ + b × (v + 1) + 6; an accumulating operation takes an earlier result by forwarding (R31, R33). -/
def writeVec (k : Core) (o : EngOp) (outs : List (Int × Int)) (banks : Word) : Core × Nat × Nat × Nat :=
  let ws := o.outs outs
  let on := ws.filter fun w => (accessCause banks w.1 4).isNone
  let k := k.watch (on.flatMap fun w => linear w.1 4) [] (o.t0 + o.b * (o.written + 1) + 6) o.pc 1
  ws.foldl (fun (acc : Core × Nat × Nat × Nat) (addr, xe) =>
    let (k, sats, bxos, unfs) := acc
    let off := (accessCause banks addr 4).isSome
    let old : Int := if off then 0 else (BitVec.ofNat 32 (leNat (k.bytes addr 4))).toInt
    let r := alignOut xe.1 xe.2 o.acc old
    let k := k.noteOut r
    let k := if off then k else k.putBytes addr (leBytes 4 (BitVec.ofInt 32 r.val).toNat)
    (k, sats + r.sat.toNat, bxos + r.bxo.toNat, unfs + r.unf.toNat)) (k, 0, 0, 0)

/-- Drop operations that are written and released. -/
def Core.engTidy (k : Core) : Core :=
  { k with eng := k.eng.filter fun o => !(decide (o.v ≤ o.written) && o.released) }

/-- Keys of a list of faults that satisfy a test, once each. -/
def EngOp.hits (o : EngOp) (key : EngFault → Option (Nat × Nat × Nat)) (bad : Nat × Nat × Nat → Bool) : List (Nat × Nat × Nat) :=
  (o.fs.filterMap key).eraseDups.filter bad
/-- Row segments (plane, segment) whose parity fails as vector v reads them (R44). -/
def EngOp.parHits (o : EngOp) (v : Nat) : List (Nat × Nat × Nat) :=
  o.hits (fun f => match f with
    | .parity u p g _ => if u = v ∧ p < o.b ∧ g < 64 then some (p, g, 0) else none
    | _ => none) fun x => oddBits 65 (o.segFlip v x.1 x.2.1)
/-- Quarter sums (plane, quarter, column) of vector v that are off by no multiple of 3 (R45). -/
def EngOp.resHits (o : EngOp) (v : Nat) : List (Nat × Nat × Nat) :=
  o.hits (fun f => match f with
    | .residue p q u col _ => if u = v ∧ p < o.b ∧ q < 4 ∧ col < 64 then some (p, q, col) else none
    | _ => none) fun x => o.fs.foldl (fun (a : Int) f => match f with
      | .residue p q u col d => if u = v ∧ (p, q, col) = x then a + d else a
      | _ => a) 0 % 3 ≠ 0
/-- What the checks find in one vector of an operation (R44, R45, R107): row segments at stage R, quarter sums at T2, A-pad
words and the shadow byte as they are latched. Each record carries the count at which the check fails. -/
def State.vecChecks (s : State) (c : Nat) (o : EngOp) (v : Nat) : State :=
  let part (plane seg at_ : Nat) :=
    sp [(0, 1, plane), (1, 1, o.b), (2, 1, o.fold), (3, 1, seg), (4, 2, o.pc), (8, 4, o.t0 + o.b * v + plane + at_)]
  let s := (o.parHits v).foldl (fun s x =>
    (s.updCore c fun k => { k with par := true }).coreEvent c 0x01 (part x.1 x.2.1 0)) s
  let s := (o.resHits v).foldl (fun s x =>
    (s.updCore c fun k => { k with res := true }).coreEvent c 0x02 (part x.1 x.2.1 3)) s
  o.fs.foldl (fun s f =>
    match f with
    | .word u e =>
      let off := (o.aAddr + v * o.stride) % 0x20000 + 8 * errWord e
      match if u = v ∧ 8 * errWord e < foldIns o.fold then errCls e 1 else none with
      | some cls => s.padEvent c cls 1 (off % 0x20000) (off % 0x20000 / 0x4000)
      | none => s
    | .shadow u flip =>
      let line := (o.aAddr + v * o.stride) % 0x20000 / 64
      if u = v ∧ oddBits 8 flip.toNat then s.padEvent c 0x0E 4 line (line / 256) else s
    | _ => s) s
/-- The core with the PAR and RES of checks that failed before cycle t, though the vector is not written yet (R44, R45, R101). -/
def Core.flagsAt (k : Core) (t : Nat) : Core :=
  let due := fun (hits : EngOp → Nat → List (Nat × Nat × Nat)) (late : Nat) => k.eng.any fun o => (List.range o.v).any fun v =>
    decide (o.written ≤ v) && (hits o v).any fun x => decide (o.t0 + o.b * v + x.1 + late < t)
  { k with par := k.par || due EngOp.parHits 0, res := k.res || due EngOp.resHits 3 }

/-- Add the cycles [a, b) to a list of disjoint spans; the cycles that are new. -/
def addSpan (l : List (Nat × Nat)) (a b : Nat) : List (Nat × Nat) × Nat :=
  let old := l.foldl (fun n x => n + (min b x.2 - max a x.1)) 0
  let hit := l.filter fun x => decide (a ≤ x.2) && decide (x.1 ≤ b)
  ((l.filter fun x => !(decide (a ≤ x.2) && decide (x.1 ≤ b))) ++
    [(hit.foldl (fun m x => min m x.1) a, hit.foldl (fun m x => max m x.2) b)], b - a - old)
/-- RGN_CL_ENG_BUSY counts a cycle once, however many cores of the cluster have a plane in stage R (R46). -/
def Cluster.engBusy (u : Cluster) (a b : Nat) : Cluster :=
  let (l, n) := addSpan u.spans a b
  { u with spans := l, busy := u.busy + BitVec.ofNat 32 n }
/-- Outputs that saturate, overflow their block exponent or underflow add to the cluster's counts and set its bits (R42, R43, R46). -/
def Cluster.noteOuts (u : Cluster) (sats bxos unfs : Nat) : Cluster :=
  { u with
    satCnt := satAdd u.satCnt sats, bxoCnt := satAdd u.bxoCnt bxos, unfCnt := satAdd u.unfCnt unfs
    engStat := u.engStat ||| (if sats > 0 then 1 else 0) ||| (if bxos > 0 then 2 else 0) }

/-- The oldest operation with a vector still to write, if that vector is wholly read by then, gets its outputs written; what its
checks found is raised (R41, R44 to R46). -/
def State.engWrite (s : State) (c : Nat) : State :=
  match (s.core c).eng.find? fun o => decide (o.written < o.v) with
  | none => s
  | some o0 =>
    let s := s.engCatch c (o0.t0 + o0.b * (o0.written + 1) - 1)
    match (s.core c).eng.find? fun o => decide (o.written < o.v) with
    | none => s
    | some o =>
      match o.latched[o.written]? with
      | none => s
      | some outs =>
        let banks := (s.cluster (c / 72)).banks
        let (k, sats, bxos, unfs) := writeVec (s.core c) o outs banks
        let o' := { o with written := o.written + 1 }
        let k := { k with eng := k.eng.map fun x => if x = o then o' else x }
        let s := (s.engOff c (o.offWrite banks outs.length) o.pc).setCore c k.engTidy
        let s := s.updCluster (c / 72) fun u =>
          (u.noteOuts sats bxos unfs).engBusy (o.t0 + o.b * o.written) (o.t0 + o.b * (o.written + 1))
        s.vecChecks c o o.written

/-- Bytes that unreleased operations still hold at the tail of W-pad region r. -/
def Core.heldBytes (k : Core) (r : Nat) : Nat :=
  k.eng.foldl (fun a o => if o.wreg = r ∧ !o.released then a + tileBytes o.b else a) 0

/-- A scalar pair as a 64-bit mask; pair 0 is all ones (R80, R91). -/
def Core.maskPair (k : Core) (n : Nat) : BitVec 64 :=
  if n = 0 then BitVec.allOnes 64 else BitVec.ofNat 64 ((k.sreg n).toNat + 2 ^ 32 * (k.sreg (n + 1)).toNat)

/-- Vectors of an EMM or EMMR word (R91). -/
def emmV (k : Core) (w : DWord) : Nat :=
  if opOf w = 0x13 then min (k.sreg (fld w 40 36)).toNat 256 else fld w 43 36 + 1

/-- The operation an EMM or EMMR word issues at cycle t0 (R91); `fs` is what its checks meet. -/
def emmOp (k : Core) (w : DWord) (fs : List EngFault) (t0 : Nat) : EngOp :=
  let c := k.circOf 0 (fld w 47 44)
  { t0 := t0, b := widBits (fld w 53 51), one := decide (fld w 53 51 = 0), fold := fld w 50 48, wreg := fld w 47 44
    tile := (c.tail + k.heldBytes (fld w 47 44)) % 2 ^ 21, v := emmV k w
    aAddr := inPad 1 ((k.areg (fld w 35 32)).toNat / 64 * 64), stride := (fld w 31 26 + 1) * 64
    pAddr := inPad 2 ((k.areg (fld w 25 22)).toNat / 4 * 4) - 0x50000, acc := fbit w 19
    eref := (BitVec.ofNat 16 (k.sreg (fld w 18 14)).toNat).toInt
    rmask := k.maskPair (fld w 13 9), cmask := k.maskPair (fld w 8 4), pc := k.pc.toNat, fs := fs
    cur := ⟨[], 0, []⟩, latched := [], written := 0, released := false }

/-- Post-increments of AA and PA (R80: AINC, PINC). -/
def emmInc (k : Core) (w : DWord) : Core :=
  let v := emmV k w
  let k := if fbit w 21 then
      k.setA (fld w 25 22) (BitVec.ofNat 20 ((k.areg (fld w 25 22)).toNat + v * foldOuts (fld w 50 48) * 4))
    else k
  if fbit w 20 then
    k.setA (fld w 35 32) (BitVec.ofNat 20 ((k.areg (fld w 35 32)).toNat + v * (fld w 31 26 + 1) * 64))
  else k

/-- Put the operation into the engine at cycle t0 (R31, R91); accesses to banks that are not ON are address faults (R111). -/
def State.emmIssue (s : State) (c : Nat) (w : DWord) (fs : List EngFault) (t0 : Nat) : State :=
  let k := s.core c
  let o := emmOp k w fs t0
  let s := s.engOff c (o.offRead k (s.cluster (c / 72)).banks)
  let s := s.setCore c (emmInc { k with eng := k.eng ++ [o], engFree := t0 + o.b * o.v, engLast := t0 + o.b * o.v + 6 } w)
  s.engCatch c t0

end Sys2Proof.Machine
end

