-- ==== Sys2Proof/Machine/Issue.lean ====
section
/-!
DEFINITION. The issue stage (R81 to R89): which words run, stalls, predication, the program counter and the loop stack.
Every core instruction is one call of `issue`.
-/
namespace Sys2Proof.Machine

/-- What the instruction at `pc` does to the loop stack, and the body it goes back to, if any (R86): the innermost loop that
ends here counts first, and one that finishes leaves the stack and passes control to the next out. -/
def loopNext (pc : Nat) : List LoopEntry → Option Nat × List LoopEntry
  | [] => (none, [])
  | e :: r =>
    if e.last = pc then
      if e.trips > 0 then (some e.first, { e with trips := e.trips - 1, iter := e.iter + 1 } :: r) else loopNext pc r
    else ((loopNext pc r).1, e :: (loopNext pc r).2)

/-- Pass to the next instruction (R86). -/
def Core.advance (k : Core) : Core :=
  let n := loopNext k.pc.toNat k.loops
  { k with pc := BitVec.ofNat 12 (n.1.getD (k.pc.toNat + 1)), loops := n.2 }

/-- Jump: pop every loop whose body does not hold the target (R89). -/
def Core.jump (k : Core) (tgt : Nat) : Core :=
  { k with pc := BitVec.ofNat 12 tgt
           loops := k.loops.filter fun e => decide (e.first ≤ tgt) && decide (tgt ≤ e.last) }

/-- Enter a loop of `trips` passes ending at `tgt` (R86, R87); none skips the body. -/
def Core.enterLoop (k : Core) (tgt trips : Nat) : Core :=
  if trips = 0 then { k with pc := BitVec.ofNat 12 (tgt + 1) }
  else
    let f := k.pc.toNat + 1
    { k with pc := BitVec.ofNat 12 f, loops := ⟨f, tgt, trips - 1, 0⟩ :: k.loops }

/-- Cycle at which every register of a list is free (R84). -/
def Core.regsReady (k : Core) (rs : List Nat) : Nat := rs.foldl (fun m r => max m (tget k.score 0 r)) k.cycle

/-- Mark results outstanding until a cycle (R84); s0 and p0 hold none (R76). -/
def Core.markRegs (k : Core) (rs : List Nat) (t : Nat) : Core :=
  { k with score := rs.foldl (fun sc r => if r = 0 ∨ r = 96 then sc else tset sc 0 r t) k.score }

/-- Even parity of the stored word fails on the word as read (R81, R105). -/
def parityFails (stored read : DWord) : Bool :=
  ((List.range 64).filter fun i => (stored ^^^ read).getLsbD i).length % 2 = 1

/-- Halt a core with class 0x08 or 0x0A (R81, R424). -/
def State.haltCore (s : State) (c cls : Nat) (w : DWord) : State :=
  let pc := (s.core c).pc.toNat
  (s.updCore c fun k => { k with run := .halted, wait := .none }).coreEvent c cls (sp [(4, 2, pc), (8, 8, w.toNat)])

/-- A core can issue now: running, not waiting, and its region executes counts (R82, R102, R155). -/
def State.canIssue (s : State) (c : Nat) : Bool :=
  let k := s.core c
  decide (k.run = .running) && decide (k.wait = .none) && (s.region (regionOf c)).net.held.isNone

/-- A plane due by cycle t is not in the W-pad: the core stalls at stage R (R35, R82). -/
def Core.lateBy (k : Core) (t : Nat) : Bool := k.planeLate.any fun d => decide (d ≤ t)
/-- A core that stalls on a plane stands in the cycle after the one it was due in, or later. -/
def Core.waitPlane (k : Core) : Core := { k with cycle := max k.cycle (k.planeLate.getD 0 + 1), beat := true }
/-- The I-store bank of the program counter is ON: bits 24 and 25 of the bank map (R75, R109, R110). -/
def State.fetchOn (s : State) (c : Nat) : Bool :=
  bankOn (s.cluster (c / 72)).banks (24 + (s.core c).pc.toNat / 2048)

/-- Issue one word on core c. An I-store bank that is not ON raises an address fault and gives the word 0, a NOP (R111;
DESIGN CHOICE, log 204: the spec says what a load gets, not a fetch).
`op`: the opcode the command names. `reads`, `writes`: scoreboard slots, beside the predicate's. `cycles`, `lat`: issue cycles and latency.
`unit`: the cycle from which the unit named is free. `lanes`: lane-wise, so it runs whatever the predicate (R83).
`body`: the effect at the start cycle, and whether the instruction issued: false when its unit is full or short and it
must stall (R82).
`skip`: what a word that does not execute still reserves; its registers keep the result time as well (R83). `flow`: how the program counter moves. -/
def issue (op c : Nat) (w : DWord) (s : State) (reads writes : List Nat) (cycles lat unit : Nat) (lanes : Bool)
    (body : Nat → State → State × Bool) (skip : Nat → State → State) (flow : Core → Core) : Out :=
  if c < 73728 then
    if s.canIssue c then
      let k := s.core c
      let start := max (k.regsReady ((96 + fld w 57 55) :: reads ++ writes)) unit
      if k.lateBy start then .next (s.updCore c Core.waitPlane)
      else if !s.fetchOn c then .next ((s.addrFault c 1 (0x60000 + 8 * k.pc.toNat) 0).updCore c fun k =>
        ({ k with cycle := k.cycle + 1, beat := true }).advance)
      else if parityFails (tget k.istore 0 k.pc.toNat) w then .next (s.haltCore c 0x0A w)
      else if opOf w ≠ op ∧ ¬(op = 0 ∧ opOf w ≥ 0x3E) then .next s
      else if illegalWord w || badLoop k w then .next (s.haltCore c 0x08 w)
      else
        let s := s.engCatch c start
        if lanes || (k.predBits w).getLsbD 0 then
          match body start s with
          | (s, false) => .next (s.updCore c fun k => { k with wait := .stall w, cycle := start, beat := true })
          | (s, true) => .next (s.updCore c fun k =>
              flow { k.markRegs writes (start + lat) with cycle := start + cycles, beat := true })
        else .next ((skip start s).updCore c fun k =>
            ({ k.markRegs writes (start + lat) with cycle := start + cycles, beat := true }).advance)
    else .next s
  else .fault .noSuchUnit

/-- An instruction whose effect is a change of its own core's registers. -/
def issueCore (op c : Nat) (w : DWord) (s : State) (reads writes : List Nat) (cycles lat : Nat) (lanes : Bool)
    (f : Core → Core) : Out :=
  issue op c w s reads writes cycles lat 0 lanes (fun _ s => (s.updCore c f, true)) (fun _ s => s) Core.advance

end Sys2Proof.Machine
end

