-- ==== Sys2Proof/Machine/CoreEngine.lean ====
section
/-!
DEFINITION. Engine instructions and the engine's own events (R25 to R46, R91, R92).
-/
namespace Sys2Proof.Machine

/-- Shift entries of columns that merge under folds 1 and 2 differ (R38, R104). -/
def mergeDiffers (k : Core) (o : EngOp) : Bool :=
  let sh := k.circBytes 0 o.wreg (o.tile + 512 * o.b) 64
  let m := if o.fold = 1 then 32 else if o.fold = 2 then 16 else 64
  (List.range 64).any fun c => sh.getD c 0 != sh.getD (c % m) 0

/-- Debug hazards of an engine operation: misaligned operand, operand past its pad, clamped count, differing shift
entries (R30, R38, R104). -/
def State.emmHazards (s : State) (c : Nat) (w : DWord) : State :=
  let k := s.core c
  let o := emmOp k w [] 0
  let aa := (k.areg (fld w 35 32)).toNat
  let pa := (k.areg (fld w 25 22)).toNat
  let s := if aa % 64 ≠ 0 then s.hazard c 4 1 aa 0 0 else s
  let s := if pa % 4 ≠ 0 then s.hazard c 4 1 pa 0 0 else s
  let s := if o.aAddr + (o.v - 1) * o.stride + foldIns o.fold > 0x20000 then s.hazard c 5 1 aa 0 0 else s
  let s := if o.pAddr + o.v * foldOuts o.fold * 4 > 0x10000 then s.hazard c 5 1 pa 0 0 else s
  let s := if opOf w = 0x13 ∧ (k.sreg (fld w 40 36)).toNat > 256 then s.hazard c 6 1 0 0 0 else s
  if mergeDiffers k o then s.hazard c 8 1 0 0 0 else s

/-- The scalar pair of a mask; pair 0 is all ones and reads no register (R80, R91). -/
def pairRegs (n : Nat) : List Nat := if n = 0 then [] else [n, n + 1]
/-- Registers an EMM word reads. -/
def emmReads (w : DWord) : List Nat :=
  [32 + fld w 35 32, 32 + fld w 25 22, fld w 18 14] ++ pairRegs (fld w 13 9) ++ pairRegs (fld w 8 4)
    ++ (if opOf w = 0x13 then [fld w 40 36] else [])
/-- Registers an EMM word writes. -/
def emmWrites (w : DWord) : List Nat :=
  (if fbit w 20 then [32 + fld w 35 32] else []) ++ (if fbit w 21 then [32 + fld w 25 22] else [])

/-- Effect of an EMM or EMMR at its start cycle: nothing for V = 0. A plane that is absent when it is due stalls the core then
(R35). -/
def emmBody (c : Nat) (w : DWord) (fs : List EngFault) (start : Nat) (s : State) : State × Bool :=
  if emmV (s.core c) w = 0 then (s, true) else ((s.emmHazards c w).emmIssue c w fs start, true)

/-- A word that does not execute keeps the engine idle for b × V cycles (R83). -/
def emmSkip (c : Nat) (w : DWord) (start : Nat) (s : State) : State :=
  s.updCore c fun k => if emmV k w = 0 then k else { k with engFree := start + widBits (fld w 53 51) * emmV k w }

/-- EMM (R91). -/
def execEmm (c : Nat) (w : DWord) (fs : List EngFault) (s : State) : Out :=
  issue 0x12 c w s (emmReads w) (emmWrites w) 1 1 (s.core c).engFree false (emmBody c w fs) (emmSkip c w) Core.advance

/-- EMMR (R91). -/
def execEmmr (c : Nat) (w : DWord) (fs : List EngFault) (s : State) : Out :=
  let free := if emmV (s.core c) w = 0 then 0 else (s.core c).engFree
  issue 0x13 c w s (emmReads w) (emmWrites w) 1 1 free false (emmBody c w fs) (emmSkip c w) Core.advance

/-- Counts a core's region has executed since the launch (R142). -/
def State.regionCount (s : State) (c : Nat) : Nat := (s.region (regionOf c)).net.exec
/-- Cycle at which a core that waited goes on: no earlier than its own cycle, `t`, and its region's count (R142). -/
def State.resumeAt (s : State) (c t : Nat) : Nat := max (max (s.core c).cycle t) (s.regionCount c)

/-- The operation that waits for a plane goes on after a stall of n cycles. -/
def Core.slipEngine (k : Core) (n at_ : Nat) : Core :=
  { k with eng := k.eng.map fun o => if o.released ∨ o.v = 0 ∨ o.b ≤ o.reads then o else { o with t0 := o.t0 + n }
           engFree := k.engFree + n, engLast := k.engLast + n, cycle := max k.cycle at_, und := true }
/-- Planes arrive by `f`: a core that has stalled on one goes on when it is there, and class 0x03 gives the length of the stall
(R35, R424). Planes that come by the cycle they are due are not late. -/
def State.planesArrive (s : State) (c : Nat) (f : State → State) : State :=
  let s := s.engCatch c (s.regionCount c)
  match (s.core c).planeLate with
  | none => f s
  | some d =>
    let s := f s
    let k := s.core c
    let at_ := s.resumeAt c 0
    if k.planeLate = some d ∨ at_ ≤ d then s
    else
      let o := (k.eng.find? fun o => !(o.released || decide (o.v = 0) || decide (o.b ≤ o.reads)))
      (s.updCore c fun k => k.slipEngine (at_ - d) at_).coreEvent c 0x03
        (sp [(4, 2, (o.map EngOp.pc).getD 0), (6, 1, (o.map EngOp.wreg).getD 0), (8, 4, at_), (12, 4, at_ - d)])

/-- A core stalled at a BAR with FLG arrives once the engine has drained (R99). -/
def State.retryBar (s : State) (c : Nat) : State :=
  let k := s.core c
  match k.wait with
  | .stall w =>
    if opOf w = 0x38 ∧ k.engDrained = true then
      let start := max k.cycle (k.engLast - 1)
      (s.barArrive c (fld w 3 0) true).updCore c fun k =>
        ({ k with wait := .none, cycle := start + 1, beat := true }).advance
    else s
  | _ => s

/-- The engine writes the next vector's outputs (R31, R41 to R43). -/
def execEngineOutputWrite (c : Nat) (s : State) : Out :=
  if c < 73728 then .next ((s.engWrite c).retryBar c) else .fault .noSuchUnit

/-- Release the oldest unreleased tile, once its last plane is read: TAIL advances, clamped at the fill (R32, R114, R115). -/
def State.engRelease (s : State) (c : Nat) : State :=
  match (s.core c).eng.find? fun o => !o.released with
  | none => s
  | some o0 =>
    let s := s.engCatch c (o0.t0 + o0.b * o0.v)
    match (s.core c).eng.find? fun o => !o.released with
    | none => s
    | some o =>
      if o.latched.length < o.v then s
      else
      let s := s.circAdvance c 0 o.wreg false (tileBytes o.b) o.pc
      s.updCore c fun k => ({ k with eng := k.eng.map fun x => if x = o then { o with released := true } else x }).engTidy

/-- At t₀ + b × V the engine releases the tile's W-pad space (R32). -/
def execEngineTileRelease (c : Nat) (s : State) : Out :=
  if c < 73728 then .next (s.engRelease c) else .fault .noSuchUnit

/-- ECLR begins to wait for the engine to drain (R92). -/
def execEclr (c : Nat) (w : DWord) (s : State) : Out :=
  issueCore 0x14 c w s [] [] 1 1 false fun k => { k with wait := .eclr }

/-- The engine has drained: SAT, BXO, PAR, RES, UND and W clear (R92). -/
def execEclrClear (c : Nat) (s : State) : Out :=
  if c < 73728 then
    let k := s.core c
    if k.run = .running ∧ k.wait = .eclr ∧ k.engDrained = true then
      .next (s.updCore c fun k => { k.clearFlags with wait := .none, cycle := max k.cycle k.engLast })
    else .next s
  else .fault .noSuchUnit

/-- EWAIT begins to wait for every issued operation's outputs (R92). -/
def execEwait (c : Nat) (w : DWord) (s : State) : Out :=
  issueCore 0x15 c w s [] [] 1 0 false fun k => { k with wait := .ewait }

/-- The awaited outputs are readable (R31, R92). -/
def execEwaitRelease (c : Nat) (s : State) : Out :=
  if c < 73728 then
    let k := s.core c
    if k.run = .running ∧ k.wait = .ewait ∧ k.engDrained = true then
      .next (s.updCore c fun k => { k with wait := .none, cycle := max k.cycle k.engLast })
    else .next s
  else .fault .noSuchUnit

end Sys2Proof.Machine
end

