-- ==== Sys2Proof/Machine/Rs.lean ====
section
/-!
DEFINITION. The burst check code (R120, R121): Reed–Solomon over GF(2⁸), eight check symbols, three virtual symbols.
Codeword order: check symbols are coefficients 0 to 7, data symbol i and virtual symbol 64 + j are coefficients 8 + i.
-/
namespace Sys2Proof.Machine

/-- Multiply by α modulo x⁸ + x⁴ + x³ + x² + 1. -/
def gfDouble (a : Nat) : Nat := let b := 2 * a; if b ≥ 256 then (b ^^^ 0x11D) % 256 else b
/-- Product in GF(2⁸). -/
def gfMul (a b : Nat) : Nat :=
  ((List.range 8).foldl (fun (acc : Nat × Nat) i =>
    (if b.testBit i then acc.1 ^^^ acc.2 else acc.1, gfDouble acc.2)) (0, a)).1
/-- αⁿ. -/
def gfExp : Nat → Nat
  | 0 => 1
  | n + 1 => gfDouble (gfExp n)
/-- aⁿ by n multiplications. -/
def gfPow (a : Nat) : Nat → Nat
  | 0 => 1
  | n + 1 => gfMul a (gfPow a n)
/-- Inverse: a²⁵⁴. -/
def gfInv (a : Nat) : Nat := gfPow a 254

/-- Generator polynomial with roots α⁰ to α⁷, low coefficient first. -/
def rsGen : List Nat :=
  (List.range 8).foldl (fun g i =>
    let r := gfExp i
    (List.zipWith (· ^^^ ·) (0 :: g) ((g.map (gfMul r)) ++ [0]))) [1]

/-- Remainder of data × x⁸ by the generator; data symbols highest first. -/
def rsRem : List Nat → List Nat → List Nat
  | [], r => r
  | d :: ds, r =>
    let f := d ^^^ r.getLastD 0
    let r' := 0 :: r.dropLast
    rsRem ds (List.zipWith (fun a g => a ^^^ gfMul f g) r' rsGen)

/-- The three virtual symbols of a burst index (R120). -/
def virtSyms (idx : Nat) : List Nat := [idx % 256, idx / 256 % 256, idx / 65536 % 256]

/-- The eight check symbols of a burst's data and index (R120). -/
def rsCheck (data : List Byte) (idx : Nat) : List Nat :=
  rsRem ((data.map BitVec.toNat ++ virtSyms idx).reverse) (List.replicate 8 0)

/-- Syndrome at αʲ of an error pattern given as (coefficient, value). -/
def rsSynd (errs : List (Nat × Nat)) (j : Nat) : Nat :=
  errs.foldl (fun a (p, v) => a ^^^ gfMul v (gfExp (j * p % 255))) 0

/-- Syndromes of a stored word: `chkErr` is stored check XOR the code's check of the stored data. The difference of a
word from the codeword with the same data is confined to the check symbols. -/
def syndromes (chkErr : List Nat) : List Nat :=
  (List.range 8).map fun j => rsSynd (chkErr.zipIdx.map fun (v, i) => (i, v)) j

/-- Determinant-free locator of up to three errors: Berlekamp–Massey. State: locator, previous locator, length,
shift, previous discrepancy. -/
structure BmState where
  c : List Nat
  b : List Nat
  l : Nat
  m : Nat
  d : Nat
  deriving DecidableEq, Repr

/-- Coefficient i of a polynomial. -/
def coef (p : List Nat) (i : Nat) : Nat := p.getD i 0

/-- One Berlekamp–Massey step at syndrome n. -/
def bmStep (s : List Nat) (st : BmState) (n : Nat) : BmState :=
  let d := (List.range (st.l + 1)).foldl (fun a i => a ^^^ gfMul (coef st.c i) (if i ≤ n then coef s (n - i) else 0)) 0
  if d = 0 then { st with m := st.m + 1 }
  else
    let f := gfMul d (gfInv st.d)
    let sh := List.replicate st.m 0 ++ st.b.map (gfMul f)
    let c' := (List.range (max st.c.length sh.length)).map fun i => coef st.c i ^^^ coef sh i
    if 2 * st.l ≤ n then { c := c', b := st.c, l := n + 1 - st.l, m := 1, d := d }
    else { st with c := c', m := st.m + 1 }

/-- Evaluate a polynomial at x. -/
def polyEval (p : List Nat) (x : Nat) : Nat := p.foldr (fun a acc => a ^^^ gfMul x acc) 0

/-- Roots of the locator among the 75 coefficients: error positions. -/
def bmRoots (c : List Nat) : List Nat :=
  (List.range 75).filter fun p => polyEval c (gfExp ((255 - p) % 255)) = 0

/-- Error values at positions by Forney's formula (first root α⁰). -/
def forney (s c : List Nat) (p : Nat) : Nat :=
  let x := gfExp p
  let xi := gfExp ((255 - p) % 255)
  let om := (List.range 8).map fun i => (List.range (i + 1)).foldl (fun a j => a ^^^ gfMul (coef c j) (coef s (i - j))) 0
  let num := gfMul x (polyEval om xi)
  let den := (List.range c.length).foldl (fun a i => if i % 2 = 1 then a ^^^ gfMul (coef c i) (gfPow xi (i - 1)) else a) 0
  gfMul num (gfInv den)

/-- Result of decoding a burst (R121). -/
inductive DecRes where
  | clean
  | corrected (errs : List (Nat × Nat))   -- (coefficient, value), 1 to 3 stored symbols
  | misaddress
  | uncorrectable
  deriving DecidableEq, Repr

/-- Decode from the check difference: at most three errors, all in stored symbols, else misaddress or uncorrectable. -/
def rsDecode (chkErr : List Nat) : DecRes :=
  let s := syndromes chkErr
  if s.all (· = 0) then .clean
  else
    let st := (List.range 8).foldl (bmStep s) ⟨[1], [1], 0, 1, 1⟩
    if st.l > 3 then .uncorrectable
    else
      let ps := bmRoots st.c
      if ps.length ≠ st.l then .uncorrectable
      else
        let errs := ps.map fun p => (p, forney s st.c p)
        if (List.range 8).all (fun j => rsSynd errs j = coef s j) ∧ errs.all (fun e => e.2 ≠ 0) then
          if ps.any (fun p => 72 ≤ p) then .misaddress else .corrected errs
        else .uncorrectable

end Sys2Proof.Machine
end

