-- ==== Sys2Proof/Machine/Vault.lean ====
section
/-!
DEFINITION. The vaults (R119 to R134): stored bursts with their check code, reads on either port with correction,
writes, poison, row retirement and health, and the conversion of a tile's bursts to planes (R49 to R53, R63, R124, R227).
-/
namespace Sys2Proof.Machine

/-- Stored data bytes of a burst. -/
def Vault.burst (v : Vault) (i : Nat) : List Byte := (List.range 64).map fun j => tget v.data 0 (64 * i + j)
/-- Stored check symbols XOR the code's check of the stored data. -/
def Vault.chkErr (v : Vault) (i : Nat) : List Nat := (List.range 8).map fun j => (tget v.chk 0 (8 * i + j)).toNat
/-- Store bytes and check difference of a burst. -/
def Vault.store (v : Vault) (i : Nat) (bs : List Byte) (chk : List Nat) : Vault :=
  { v with data := putList v.data (64 * i) (2 ^ 25) bs
           chk := (chk.zipIdx).foldl (fun t (x, j) => tset t 0 (8 * i + j) (BitVec.ofNat 8 x)) v.chk }
/-- Write a whole burst with its correct check symbols; a pending write-back of it is cancelled (R132). -/
def Vault.write (v : Vault) (i : Nat) (bs : List Byte) : Vault :=
  let v := v.store i bs (List.replicate 8 0)
  { v with wb := v.wb.filter (· ≠ i) }
/-- Write a burst poisoned (R121, R131, R133). -/
def Vault.poison (v : Vault) (i : Nat) (bs : List Byte) : Vault := v.store i bs (List.replicate 8 0xFF)
/-- A symbol of a burst changes in the DRAM: data symbols 0 to 63, check symbols 64 to 71 (R120). -/
def Vault.flip (v : Vault) (f : SymFlip) : Vault :=
  let bs := v.burst f.burst
  let ce := v.chkErr f.burst
  if f.sym < 64 then
    let unit := (List.range 64).map fun j => if j = f.sym then f.mask else (0 : Byte)
    v.store f.burst (List.zipWith (· ^^^ ·) bs unit) (List.zipWith (· ^^^ ·) ce (rsCheck unit 0))
  else if f.sym < 72 then
    v.store f.burst bs (ce.zipIdx.map fun (x, j) => if j + 64 = f.sym then x ^^^ f.mask.toNat else x)
  else v

/-- Decode a burst (R121): a poisoned burst is always uncorrectable. -/
def Vault.decode (v : Vault) (i : Nat) : DecRes :=
  let ce := v.chkErr i
  if ce.all (· = 0xFF) then .uncorrectable else rsDecode ce

/-- Data with the located errors of a corrected burst undone. -/
def applyErrs (bs : List Byte) (errs : List (Nat × Nat)) : List Byte :=
  errs.foldl (fun bs (p, x) =>
    if 8 ≤ p ∧ p < 72 then bs.modify (p - 8) (· ^^^ BitVec.ofNat 8 x) else bs) bs

/-- Row of a burst: 8192 × half + 512 × bank + row (R119). -/
def rowKey (i : Nat) : Nat := 8192 * (i % 2) + 512 * (i / 2 % 16) + i / 1024
/-- The 32 bursts of a row. -/
def rowBursts (k : Nat) : List Nat :=
  (List.range 32).map fun col => 1024 * (k % 512) + 32 * col + 2 * (k / 512 % 16) + k / 8192

/-- Register and record of a vault event 0x10 to 0x12 (R137, R424). -/
def State.vaultEvent (s : State) (c cls syms port burst : Nat) : State :=
  let s := s.updCluster (c / 72) fun u =>
    { u with vltLast := BitVec.ofNat 32 (syms * 2 ^ 27 + (c % 72) * 2 ^ 20 + port * 2 ^ 19 + burst % 2 ^ 19) }
  s.coreEventIf (port = 0 && stepClass cls) c cls (sp [(0, 1, syms), (1, 1, port), (4, 4, burst), (8, 1, s.areaKind c burst)])

/-- Report a vault failing or lost to the region agent (R134). -/
def State.vaultReport (s : State) (c : Nat) (lost : Bool) : State :=
  let v := s.vault c
  let s := s.setVault c { v with lost := v.lost || lost, failing := true }
  s.updCluster (c / 72) fun u => { u with vltStat := u.vltStat ||| 0x20 }

/-- Retire a row: copy its bursts to a spare row, correctable ones corrected, others poisoned; redirect it (R133).
With no spare row left in the bank, or no room for its slub, the vault is failing (R134, R408). `origin` is the slub's. -/
def State.retireRow (s : State) (c key cause origin : Nat) : State :=
  let v := s.vault c
  let bank := key / 512
  let used := tget v.spares 0 bank
  if used ≥ 8 ∨ s.evt.slubs.length ≥ 245760 then s.vaultReport c false
  else
    let v := (rowBursts key).foldl (fun v i =>
      match v.decode i with
      | .clean => v
      | .corrected errs => v.store i (applyErrs (v.burst i) errs) (List.replicate 8 0)
      | _ => v.poison i (v.burst i)) v
    let v := { v with spares := tset v.spares 0 bank (used + 1), retired := tset v.retired 0 key (used + 1)
                      rows := tset v.rows ⟨[], []⟩ key ⟨[], []⟩ }
    let s := s.setVault c v
    let s := s.updCluster (c / 72) fun u => { u with minSpare := min u.minSpare (7 - used) }
    let s := s.coreEventIf false c 0x16
      (sp [(0, 1, bank % 16), (1, 1, bank / 16), (2, 2, key % 512), (4, 1, cause), (5, 1, 7 - used)])
    s.addRowSlub c key origin

/-- 24 hours and 1 second in WTIME ticks. -/
def ticksDay : Nat := 86400 * 175000000
/-- One second of bclk ticks (R364). -/
def ticksSec : Nat := 175000000

/-- Bursts found within a window of ticks, with one more found now. -/
def found (l : List (Nat × Nat)) (now win : Nat) (burst : Option Nat) : List (Nat × Nat) :=
  let l := l.filter fun x => decide (now ≤ x.2 + win)
  match burst with
  | none => l
  | some i => (l.filter fun x => decide (x.1 ≠ i)) ++ [(i, now)]

/-- Note an error in a row and retire it at 2 bursts uncorrectable, or 16 found by the scrubber and corrected, within 24 hours
(R133); more than 64 bursts uncorrectable or misaddressed within 1 s, or a whole row, lose the vault (R134). -/
def State.rowError (s : State) (c burst : Nat) (ue scrub : Bool) : State :=
  let v := s.vault c
  let now := s.clk.wtime
  let key := rowKey burst
  let e := tget v.rows ⟨[], []⟩ key
  let e : RowErr := ⟨found e.ue now ticksDay (if ue then some burst else none),
    found e.ce now ticksDay (if !ue && scrub then some burst else none)⟩
  let v := { v with rows := tset v.rows ⟨[], []⟩ key e, bad := found v.bad now ticksSec (if ue then some burst else none) }
  let s := s.setVault c v
  let s := if v.bad.length > 64 then s.vaultReport c true else s
  let s := if ue ∧ (rowBursts key).all (fun i => match v.decode i with
      | .uncorrectable => true
      | .misaddress => true
      | _ => false) then s.vaultReport c true else s
  if e.ue.length ≥ 2 then s.retireRow c key 0 2 else if e.ce.length ≥ 16 then s.retireRow c key 1 2 else s

/-- Note an uncorrectable or misaddressed burst for the serving engine and the steward (R122, R415). -/
def State.noteBad (s : State) (c i : Nat) : State :=
  match s.partOf c with
  | none => s
  | some p => s.updPart p fun x => { x with bad := if x.bad.contains (c, i) then x.bad else x.bad ++ [(c, i)] }

/-- Read a burst on a port (0 first, 1 second or scrubber): delivered data, and whether it was bad (R121). `scrub`: the scrubber
reads (R133). `note`: a bad burst is told to the serving engine and the steward. -/
def State.vaultRead (s : State) (c i port : Nat) (scrub : Bool := false) (note : Bool := true) : State × List Byte × Bool :=
  let v := s.vault c
  let tell := fun (s : State) => if note then s.noteBad c i else s
  match v.decode i with
  | .clean => (s, v.burst i, false)
  | .corrected errs =>
    let s := s.setVault c { v with wb := if v.wb.contains i then v.wb else v.wb ++ [i] }
    let s := s.vaultEvent c 0x10 errs.length port i
    (s.rowError c i false scrub, applyErrs (v.burst i) errs, false)
  | .misaddress => ((tell (s.vaultEvent c 0x12 6 port i)).rowError c i true false, v.burst i, true)
  | .uncorrectable => ((tell (s.vaultEvent c 0x11 7 port i)).rowError c i true false, v.burst i, true)

/-- Apply the DRAM errors an event meets. -/
def State.vaultFlips (s : State) (c : Nat) (fs : List SymFlip) : State :=
  if fs.isEmpty then s else s.setVault c (fs.foldl Vault.flip (s.vault c))

/-! ### From bursts to tiles -/

/-- Tiles that a VLD delivers (R49, R97, R227): whole tiles of the stream, or one KV tile. -/
def VaultOp.tileCount (o : VaultOp) : Nat :=
  if o.conv = 0 then o.count * 480 / (4096 * widBits o.wid) else 1
/-- Bursts decoded once tile t is complete. -/
def VaultOp.burstsFor (o : VaultOp) (t : Nat) : Nat :=
  if o.conv = 0 ∧ t + 1 < o.tileCount then min o.count ((4096 * widBits o.wid * (t + 1) + 479) / 480) else o.count
/-- Header of a burst (R48). -/
def hdr (bs : List Byte) : Nat := leNat (bs.take 4)
/-- Payload bits of a burst. -/
def payload (bs : List Byte) : Nat := leNat (bs.drop 4)

/-- A column run begins in burst n of a streaming group of width b (R50). -/
def runBegins (b n total : Nat) : Bool :=
  let lo := (480 * n + 64 * b - 1) / (64 * b)
  decide (64 * b * lo < 480 * (n + 1)) && decide (64 * b * lo < total)

/-- Header checks of R51 and R53 in order: 0 WID, 1 NOB, 2 LAST, 3 TERN; none when all pass. -/
def hdrCheck (o : VaultOp) (n h : Nat) : Option Nat :=
  let b := widBits o.wid
  let total := 4096 * b * o.tileCount
  let wid := h / 2 ^ 24 % 8
  let tern := h.testBit 27
  if wid ≠ o.wid ∨ wid = 6 then some 0
  else if h.testBit 28 ≠ !runBegins b n total then some 1
  else if h.testBit 29 ≠ decide (n + 1 = o.count) then some 2
  else if tern = true ∧ wid ≠ 1 then some 3
  else none

/-- Payload with every ternary code 0b10 replaced by 0b00, and whether one was met (R52). -/
def fixTern (p : Nat) : Nat × Bool :=
  (List.range 240).foldl (fun (acc : Nat × Bool) i =>
    let code := p / 4 ^ i % 4
    if code = 2 then (acc.1, true) else (acc.1 + code * 4 ^ i, acc.2)) (0, false)

/-- Decode burst n of a VLD on the first port, with the header and ternary checks of a weight stream (R51 to R53). -/
def State.vldBurst (s : State) (c : Nat) (o : VaultOp) (n : Nat) : State :=
  let i := (o.start + n) % 2 ^ 19
  let (s, bs, _) := s.vaultRead c i 0
  if o.conv = 0 then
    let h := hdr bs
    let s := match hdrCheck o n h with
      | some k => ((s.coreEvent c 0x14 (sp [(0, 1, k), (4, 4, i), (8, 4, h)])).noteBad c i).rowError c i true false
      | none => s
    if h.testBit 27 && (fixTern (payload bs)).2 then s.coreEvent c 0x15 (sp [(0, 1, 4), (4, 4, i), (8, 4, h)]) else s
  else s

/-- Data of burst n as delivered to the converter, without events. -/
def State.vldData (s : State) (c : Nat) (o : VaultOp) (n : Nat) : List Byte :=
  let v := s.vault c
  let i := (o.start + n) % 2 ^ 19
  match v.decode i with
  | .corrected errs => applyErrs (v.burst i) errs
  | _ => v.burst i

/-- Stream bits [lo, lo + len) of a weight stream. -/
def State.streamBits (s : State) (c : Nat) (o : VaultOp) (lo len : Nat) : Nat :=
  let n0 := lo / 480
  let n1 := (lo + len - 1) / 480
  let all := (List.range (n1 + 1 - n0)).foldl (fun a j =>
    let bs := s.vldData c o (n0 + j)
    let p := if (hdr bs).testBit 27 then (fixTern (payload bs)).1 else payload bs
    a + p * 2 ^ (480 * j)) 0
  all / 2 ^ (lo - 480 * n0) % 2 ^ len

/-- Planes and shift vector of a tile from the code of each cell and the shift of each column: row r of a plane is
eight bytes, bit c of the row belonging to column c. -/
def tilePlanes (b : Nat) (cell : Nat → Nat → Nat) (shift : Nat → Nat) : List Byte :=
  ((List.range b).flatMap fun k => (List.range 64).flatMap fun r =>
    leBytes 8 ((List.range 64).foldl (fun a c => if (cell r c).testBit k then a + 2 ^ c else a) 0))
  ++ (List.range 64).map fun c => BitVec.ofNat 8 (shift c)

/-- Tile t of a weight stream (R49, R50, R124). -/
def State.weightTile (s : State) (c : Nat) (o : VaultOp) (t : Nat) : TileBuf :=
  let b := widBits o.wid
  let bits := s.streamBits c o (4096 * b * t) (4096 * b)
  let code := fun r col => bits / 2 ^ (b * (64 * col + r)) % 2 ^ b
  let hdrOf := fun col => hdr (s.vldData c o (b * (4096 * t + 64 * col) / 480))
  { bytes := tilePlanes b (fun r col => if o.tr then code col r else code r col) fun col => hdrOf col / 2 ^ 16 % 256
    scale := if o.cap then some (hdrOf 0 % 65536) else none }

/-- The tile of a KV half-slice (R63, R226, R227). -/
def State.kvTile (s : State) (c : Nat) (o : VaultOp) : TileBuf :=
  let b := widBits o.wid
  let sc := s.vldData c o 0
  let el := leNat ((List.range (o.count - 1)).flatMap fun n => s.vldData c o (n + 1))
  let code := fun d p => el / 2 ^ (128 * b * p + b * d) % 2 ^ b
  let shiftOf := fun p => ((leNat ((sc.drop (2 * p)).take 2) / 128 % 256) + 256 - 134) % 256
  -- column form: element d of position p at (d mod 64, p + 32 (d div 64)); row form the transpose
  let colForm := decide ((o.conv = 1) ↔ (o.tr = false))
  { bytes := tilePlanes b
      (fun r col => if colForm then code (r + 64 * (col / 32)) (col % 32) else code (col + 64 * (r / 32)) (r % 32))
      (fun col => if colForm then shiftOf (col % 32) else 0)
    scale := none }

/-! ### Slots -/

/-- ADAPT_SLOTS: a multiple of 256, at most 1,024, 0 without an adapter pool (R263). -/
def Part.adaptSlots (x : Part) : Nat := if (x.area 2 0).isSome then 256 * (1 + Config.adaptSlots x.digest % 4) else 0
/-- First burst of the area a unit kind lies in (R256). -/
def Part.kindFirst (x : Part) (kind : Nat) : Nat :=
  ((x.area (if kind ≤ 1 then 0 else if kind ≤ 3 then 1 else 2) 0).getD (0, 0)).1
/-- First burst of an adapter unit in slot k: the pool holds ADAPT_SLOTS ÷ 256 slots per core, in equal shares (R263). -/
def Part.adapterBase (x : Part) (k base : Nat) : Nat :=
  let a := (x.area 2 0).getD (0, 0)
  a.1 + k / 256 * (a.2 / max 1 (x.adaptSlots / 256)) + base
/-! ### The second port (R128, R129) -/

/-- Bursts [a, a + n) lie in a staging area, in a slot of the weights areas that no copy of the pointer table names (R269), or in
an adapter slot that is LOADING (R264; DEDUCED, log 213). -/
def Part.stageArea (x : Part) (a n : Nat) : Bool :=
  let within := fun (k : Nat) => x.areas.any fun y => decide (y.1 = k) && decide (y.2.2.1 ≤ a) && decide (a + n ≤ y.2.2.1 + y.2.2.2)
  let share := ((x.area 2 0).getD (0, 0)).2 / max 1 (x.adaptSlots / 256)
  within 4 || ((within 0 || within 1) && (x.ptrs ++ x.ptrsB).all fun e => decide (a + n ≤ e.base) || decide (e.base + e.len ≤ a))
    || x.adapt.any fun (k, y) => decide (y.state = 1) && decide (x.adapterBase k 0 ≤ a) && decide (a + n ≤ x.adapterBase k share)
/-- The second port of a vault may write bursts [a, a + n) now (R129): the core runs no program, or they are staged. -/
def State.portMay (s : State) (c a n : Nat) : Bool :=
  decide ((s.core c).run ≠ .running) || (match s.partOf c with
    | none => true
    | some p => (s.part p).stageArea a n)
/-- Write bursts through the second port of a vault; where it may not, nothing is written, with class 0x17 (R129, R136). -/
def State.portWrite (s : State) (c a : Nat) (bs : List (List Byte)) : State :=
  if s.portMay c a bs.length then s.setVault c (bs.zipIdx.foldl (fun v (b, k) => v.write (a + k) b) (s.vault c))
  else s.coreEventIf false c 0x17 (sp [(0, 1, 0), (1, 1, 0), (4, 4, a)])

end Sys2Proof.Machine
end

