-- ==== Sys2Proof/Machine/CoreMove.lean ====
section
/-!
DEFINITION. Movement and vault-port instructions and the vault's own events (R77, R96, R97, R113 to R126, R168).
-/
namespace Sys2Proof.Machine

/-- Address of a format-M operand: AM 0 and 2 AB + OFF, AM 1 AB (R80). -/
def mAddr (k : Core) (w : DWord) : Nat :=
  let b := (k.areg (fld w 47 44)).toNat
  if fld w 43 42 = 1 then b else (b + fld w 39 20) % 0x100000
/-- AB after a format-M access: OFF is signed, and addition is modulo 2²⁰ (R76, R80). -/
def mInc (k : Core) (w : DWord) : Core :=
  if fld w 43 42 = 0 then k
  else k.setA (fld w 47 44) (BitVec.ofNat 20 ((k.areg (fld w 47 44)).toNat + fld w 39 20))
/-- AB is updated with latency 1. -/
def mIncAt (w : DWord) (start : Nat) (k : Core) : Core :=
  if fld w 43 42 = 0 then k else (mInc k w).markRegs [32 + fld w 47 44] (start + 1)
/-- Bytes of an LD or ST operand by SZ. -/
def mSize (w : DWord) : Nat := if fld w 41 40 = 0 then 4 else if fld w 41 40 = 1 then 2 else 1
/-- Bytes of an LDV or STV operand by SZ. -/
def mvSize (w : DWord) : Nat := if fld w 41 40 = 0 then 64 else 32
/-- Low address bits ignored; a misaligned operand is a debug hazard (R97, R104). -/
def State.alignTo (s : State) (c addr n : Nat) : State × Nat :=
  (if addr % n ≠ 0 then s.hazard c 4 3 addr 0 0 else s, addr / n * n)

/-- LD: a word, or a zero-extended halfword or byte (R97). `es`: the pad errors met (R107). -/
def execLd (c : Nat) (w : DWord) (es : List PadErr) (s : State) : Out :=
  issue 0x29 c w s [32 + fld w 47 44] [fld w 53 48] 1 3 (s.core c).moveFree false
    (fun start s =>
      let (s, addr) := s.alignTo c (mAddr (s.core c) w) (mSize w)
      let s := s.updCore c (mIncAt w start)
      let (s, bs) := s.padRead c 3 addr (mSize w) start es
      (s.updCore c fun k => k.setSpec (fld w 53 48) (BitVec.ofNat 32 (leNat bs)), true))
    (fun _ s => s) Core.advance

/-- What a sub-word store to the A-pad or P-pad leaves in the rest of its 64-bit word: the word is read, merged and written
with a new check code, so a word that could not be corrected stays as it was read (R106, R107). -/
def State.mergeRead (s : State) (c addr n : Nat) (es : List PadErr) : State :=
  let word := addr / 8 * 8
  if n = 4 ∨ es.isEmpty ∨ padOf addr = 0 ∨ (accessCause (s.cluster (c / 72)).banks word 8).isSome then s
  else (s.padCheck c word 8 es).updCore c fun k =>
    k.putAt (linear word 8) (leBytes 8 (padDeliver word 8 es (leNat (k.bytes word 8))))
/-- ST: REG's low word, halfword or byte (R97). `es`: the pad errors that the read of a sub-word store meets (R106, R107). -/
def execSt (c : Nat) (w : DWord) (s : State) (es : List PadErr := []) : Out :=
  issue 0x2A c w s [32 + fld w 47 44, fld w 53 48] [] 1 0 (s.core c).moveFree false
    (fun start s =>
      let x := ((s.core c).spec (fld w 53 48)).toNat
      let (s, addr) := s.alignTo c (mAddr (s.core c) w) (mSize w)
      let s := (s.updCore c (mIncAt w start)).mergeRead c addr (mSize w) es
      (s.padStore c 3 addr (leBytes (mSize w) x) (start + 2), true))
    (fun _ s => s) Core.advance

/-- LDV: 64 B of FP32, or 32 B of BF16 expanded exactly (R97). -/
def execLdv (c : Nat) (w : DWord) (es : List PadErr) (s : State) : Out :=
  issue 0x2B c w s [32 + fld w 47 44] [64 + fld w 52 48] 1 3 (s.core c).moveFree false
    (fun start s =>
      let (s, addr) := s.alignTo c (mAddr (s.core c) w) (mvSize w)
      let s := s.updCore c (mIncAt w start)
      let (s, bs) := s.padRead c 3 addr (mvSize w) start es
      let x := leNat bs
      let lane := fun l => if fld w 41 40 = 0 then BitVec.ofNat 32 (x / 2 ^ (32 * l)) else bfToF (x / 2 ^ (16 * l))
      (s.updCore c fun k => k.setLanes (fld w 52 48) 0xFFFF lane, true))
    (fun _ s => s) Core.advance

/-- STV: 64 B of FP32, or 32 B of BF16 rounded to nearest even (R97). -/
def execStv (c : Nat) (w : DWord) (s : State) : Out :=
  issue 0x2C c w s [32 + fld w 47 44, 64 + fld w 52 48] [] 1 0 (s.core c).moveFree false
    (fun start s =>
      let k := s.core c
      let bs := (List.range 16).flatMap fun l =>
        let x := k.vlane (fld w 52 48) l
        if fld w 41 40 = 0 then leBytes 4 x.toNat else leBytes 2 (fToBf x)
      let (s, addr) := s.alignTo c (mAddr k w) (mvSize w)
      let s := s.updCore c (mIncAt w start)
      (s.padStore c 3 addr bs (start + 2), true))
    (fun _ s => s) Core.advance

/-- PCPY: (LEN + 1) × 64 B within the core; an overlapping copy leaves the destination undefined (R97). A copy whose source or
destination meets the reserved range writes nothing (R77). `es`: the pad errors its reads meet (R107). -/
def execPcpy (c : Nat) (w : DWord) (s : State) (es : List PadErr := []) : Out :=
  let n := (fld w 19 8 + 1) * 64
  let busy := (n + 127) / 128
  issue 0x2D c w s [32 + fld w 51 48, 32 + fld w 47 44] [] 1 0 (s.core c).moveFree false
    (fun start s =>
      let k := s.core c
      let src := ((k.areg (fld w 47 44)).toNat + fld w 39 20) % 0x100000
      let dst := (k.areg (fld w 51 48)).toNat
      let s := s.updCore c fun k => { k with moveFree := start + busy }
      let banks := (s.cluster (c / 72)).banks
      match (linear src n ++ linear dst n).find? fun a => decide (accessCause banks a 1 = some 0) with
      | some a => (s.addrFault c 0 a, true)
      | none =>
        let (s, bs) := s.padRead c 3 src n start es
        if src < dst + n ∧ dst < src + n then
          ((s.hazard c 9 3 src 0 0).padStore c 3 dst
            ((List.range n).map fun i => Config.pcpyOverlap src dst n i) (start + busy + 2), true)
        else (s.padStore c 3 dst bs (start + busy + 2), true))
    (fun start s => s.updCore c fun k => { k with moveFree := start + busy }) Core.advance

/-! ### The vault port -/

/-- The operation a VLD, VRD or VWR word queues (R96, R97). -/
def vaultOpOf (k : Core) (w : DWord) : VaultOp :=
  let cap := fld w 63 58 == 0x2E && fbit w 26
  { kind := if opOf w = 0x2E then .vld else if opOf w = 0x2F then .vrd else .vwr
    start := (k.sreg (fld w 53 49)).toNat % 2 ^ 19, count := fld w 48 37 + 1, wid := fld w 36 34, conv := fld w 33 32
    tr := fbit w 31, wreg := fld w 30 27
    addr := if opOf w = 0x2E then (k.areg (fld w 25 22)).toNat else (k.areg (fld w 30 27)).toNat / 64 * 64
    cap := cap, tiles := 0, nextBurst := 0, bufs := [], paused := false, headAt := 0, pc := k.pc.toNat }

/-- Write raw bytes that come from outside the core's own instructions (R111). -/
def State.padPut (s : State) (c : Nat) (addrs : List Nat) (bs : List Byte) (unit : Nat := 4) (pc : Option Nat := none) : State :=
  let banks := (s.cluster (c / 72)).banks
  match addrs.find? fun a => (accessCause banks a 1).isSome with
  | some a => s.addrFault c ((accessCause banks a 1).getD 0) a unit pc
  | none => s.updCore c fun k => k.putAt addrs bs

/-- The operation that reaches the head of the queue does so at cycle t (R96). -/
def Core.vaultHead (k : Core) (t : Nat) : Core :=
  { k with vq := match k.vq with
    | [] => []
    | o :: r => { o with headAt := t } :: r }

/-- Queue the operation of a word at cycle t: at most four outstanding (R96). CAPR is left past the last scale halfword (R97). `fs`:
DRAM errors that have struck the vault by then. -/
def State.vaultQueue (s : State) (c : Nat) (w : DWord) (fs : List SymFlip) (t : Nat) : State × Bool :=
  let k := s.core c
  if k.vq.length ≥ 4 then (s, false)
  else
    let o := vaultOpOf k w
    let raw := (k.areg (fld w 30 27)).toNat
    let s := if o.kind ≠ .vld ∧ raw % 64 ≠ 0 then s.hazard c 4 4 raw 0 0 else s
    ((s.vaultFlips c fs).updCore c fun k =>
      let k := if o.cap then
          k.setA (fld w 25 22) (BitVec.ofNat 20 ((k.areg (fld w 25 22)).toNat + 2 * o.tileCount)) else k
      if k.vq.isEmpty then ({ k with vq := [o] }).vaultHead t else { k with vq := k.vq ++ [o] }, true)

/-- The shape of VLD, VRD and VWR. -/
def execVaultOp (op c : Nat) (w : DWord) (fs : List SymFlip) (s : State) : Out :=
  let cap := if fbit w 26 then [32 + fld w 25 22] else []
  issue op c w s (fld w 53 49 :: if op = 0x2E then cap else [32 + fld w 30 27]) (if op = 0x2E then cap else []) 1 1 0 false
    (fun start s => s.vaultQueue c w fs start) (fun _ s => s) Core.advance

/-- VLD queues a stream of bursts converted to bit-planes (R97). -/
def execVld (c : Nat) (w : DWord) (s : State) : Out := execVaultOp 0x2E c w [] s
/-- VRD queues a raw vault-to-pad transfer. `fs`: DRAM errors its vault holds by then. -/
def execVrd (c : Nat) (w : DWord) (fs : List SymFlip) (s : State) : Out := execVaultOp 0x2F c w fs s
/-- VWR queues a pad-to-vault transfer. -/
def execVwr (c : Nat) (w : DWord) (s : State) : Out := execVaultOp 0x30 c w [] s

/-- Cycle in which the vault port moves granule n of a raw transfer: it takes its first `wait` cycles after the operation
reaches the head of the queue, within the bound of 120, and two more in every cycle from then on (R96, R123, R125, R126). -/
def VaultOp.moves (o : VaultOp) (wait n : Nat) : Nat := o.headAt + min wait 120 + n / 2
/-- A raw transfer moves its granules (R96, R97, R126): a VRD's land in the pad and a VWR's are read from it, each in its own
cycle. `fs`: the DRAM errors its vault reads meet; `es`: pad errors, each with its granule. DESIGN CHOICE, log 206: a burst
index past the last goes on at 0. -/
def State.vaultMove (s : State) (c wait : Nat) (o : VaultOp) (fs : List SymFlip) (es : List (Nat × PadErr)) : State :=
  match o.kind with
  | .vld => s
  | .vrd =>
    (List.range o.count).foldl (fun s n =>
      let (s, bs, _) := s.vaultRead c ((o.start + n) % 2 ^ 19) 0
      s.storeAt c 4 (linear (o.addr + 64 * n) 64) bs (o.moves wait n + 1) o.pc) (s.vaultFlips c fs)
  | .vwr =>
    (List.range o.count).foldl (fun s n =>
      let (s, bs) := s.padRead c 4 ((o.addr + 64 * n) % 0x100000) 64 (o.moves wait n) ((es.filter fun e => decide (e.1 = n)).map (·.2)) o.pc
      s.setVault c ((s.vault c).write ((o.start + n) % 2 ^ 19) bs)) s

/-- Commit the oldest assembled tile when its region has room: planes and shift vector at HEAD, HEAD advanced, the
captured scale stored (R50, R114, R124). -/
def State.tileRoom (s : State) (c : Nat) (o : VaultOp) : Bool :=
  let d := (s.core c).circOf 0 o.wreg
  decide (d.size - d.fill ≥ tileBytes (widBits o.wid))

/-- Place one tile. -/
def State.placeTile (s : State) (c : Nat) (o : VaultOp) (idx : Nat) (t : TileBuf) : State :=
  let d := (s.core c).circOf 0 o.wreg
  let s := (s.circWrite c 0 o.wreg d.head t.bytes 4).updCore c fun k =>
    k.setCirc 0 o.wreg { d with head := (d.head + t.bytes.length) % 2 ^ 21 }
  match t.scale with
  | some x => s.padPut c (padWrap 0 0x20000 ((o.addr + 2 * idx) % 0x20000) 2) (leBytes 2 x) 4 o.pc
  | none => s

/-- Replace the operation at the head of the queue. -/
def State.setVqHead (s : State) (c : Nat) (o : VaultOp) : State :=
  s.updCore c fun k => { k with vq := o :: k.vq.tail }

/-- Decode and assemble the next tile of the operation, raising what its bursts raise (R51, R52, R121, R124). -/
def State.assemble (s : State) (c : Nat) (o : VaultOp) : State × VaultOp × TileBuf :=
  let last := o.burstsFor o.tiles
  let s := (List.range (last - o.nextBurst)).foldl (fun s j => s.vldBurst c o (o.nextBurst + j)) s
  let t := if o.conv = 0 then s.weightTile c o o.tiles else s.kvTile c o
  (s, { o with tiles := o.tiles + 1, nextBurst := last }, t)

/-- One step of the converter: a held tile commits when there is room; otherwise the next tile is assembled and either
commits or waits in a buffer, and with three tiles held the run pauses before the next tile (R124). -/
def State.tileStep (s : State) (c : Nat) : State :=
  match (s.core c).vq with
  | [] => s
  | o :: _ =>
    if o.kind ≠ .vld then s
    else match o.bufs with
    | t :: ts =>
      if s.tileRoom c o then
        (s.placeTile c o (o.tiles - o.bufs.length) t).setVqHead c { o with bufs := ts }
      else if o.paused ∨ o.tiles ≥ o.tileCount ∨ o.bufs.length ≥ 3 then s
      else
        let (s, o, t) := s.assemble c o
        let o := { o with bufs := o.bufs ++ [t] }
        s.setVqHead c { o with paused := decide (o.bufs.length ≥ 3) && decide (o.tiles < o.tileCount) }
    | [] =>
      if o.paused ∨ o.tiles ≥ o.tileCount then s
      else
        let (s, o, t) := s.assemble c o
        if s.tileRoom c o then (s.setVqHead c o).placeTile c o (o.tiles - 1) t
        else s.setVqHead c { o with bufs := [t] }

/-- TILE_COMMIT (R124): DRAM errors met by the tile's bursts are an operand. A core stalled on the planes goes on (R35). -/
def execTileCommit (c : Nat) (fs : List SymFlip) (s : State) : Out :=
  if c < 73728 then .next (s.planesArrive c fun s => (s.vaultFlips c fs).tileStep c) else .fault .noSuchUnit

/-- A tile buffer frees and the paused run resumes (R124). -/
def execVaultRunResume (c : Nat) (s : State) : Out :=
  if c < 73728 then
    match (s.core c).vq with
    | [] => .next s
    | o :: _ => if o.paused ∧ o.bufs.length < 3 then .next (s.setVqHead c { o with paused := false }) else .next s
  else .fault .noSuchUnit

/-- The head operation can finish: a stream has delivered its tiles; a raw transfer moves its granules as it completes. -/
def VaultOp.finished (o : VaultOp) : Bool :=
  match o.kind with
  | .vld => decide (o.tiles ≥ o.tileCount) && o.bufs.isEmpty
  | _ => true

/-- A vault instruction stalled on a full queue issues (R82, R96). -/
def State.retryVault (s : State) (c : Nat) : State :=
  match (s.core c).wait with
  | .stall w =>
    if 0x2E ≤ opOf w ∧ opOf w ≤ 0x30 then
      let t := s.resumeAt c 0
      match s.vaultQueue c w [] t with
      | (s, true) => s.updCore c fun k => ({ k with wait := .none, cycle := t + 1, beat := true }).advance
      | (_, false) => s
    else s
  | _ => s

/-- VAULT_OPERATION_COMPLETE: the head operation finishes and frees its queue entry, and the next reaches the head (R96). A raw
transfer's first granule moved `wait` cycles after the operation reached the head; `fs` and `es` are what its reads met. -/
def execVaultOperationComplete (c : Nat) (s : State) (wait : Nat := 0) (fs : List SymFlip := []) (es : List (Nat × PadErr) := []) : Out :=
  if c < 73728 then
    match (s.core c).vq with
    | [] => .next s
    | o :: _ =>
      if o.finished then
        let s := s.vaultMove c wait o fs es
        let t := max (s.resumeAt c 0) (if o.kind = .vld then 0 else o.moves wait (o.count - 1) + 1)
        .next ((s.updCore c fun k => ({ k with vq := k.vq.tail }).vaultHead t).retryVault c)
      else .next s
  else .fault .noSuchUnit

/-- CRADV (R97, R114, R115): advance head or tail. Bytes released from an A-pad region count toward its credit returns
(R118); planes published in the W-pad let a stalled EMM issue. -/
def execCradv (c : Nat) (w : DWord) (s : State) : Out :=
  issue 0x31 c w s [] [] 1 1 0 false
    (fun _ s =>
      let p := fld w 43 42
      let r := fld w 47 44
      let head := fbit w 48
      let fill := ((s.core c).circOf p r).fill
      let s := if p = 1 ∧ !head then
          s.updCore c fun k => { k with released := tupd k.released 0 r (· + min (fld w 19 0) fill) }
        else s
      (s.circAdvance c p r head (fld w 19 0) (s.core c).pc.toNat, true))
    (fun _ s => s) Core.advance

/-- The first send route entry whose DEST and GRP equal TSEND's gives ACT (R205). -/
def routeAct (routes : List (BitVec 32)) (dest : Nat) (grp : Bool) : Bool :=
  match routes.find? fun e => e.getLsbD 18 && decide (e.toNat % 65536 = dest) && (e.getLsbD 16 == grp) with
  | some e => e.getLsbD 17
  | none => false

/-- Hand a packet to the tree interface: at most eight outstanding (R97). -/
def State.tsend (s : State) (c : Nat) (w : DWord) : State × Bool :=
  let k := s.core c
  if k.sends.length ≥ 8 then (s, false)
  else
    let p : TreeSend :=
      { vc := fld w 53 52, addr := (k.areg (fld w 51 48)).toNat, len := fld w 47 42 + 1, sent := 0, dest := fld w 41 26
        grp := fbit w 25, red := fbit w 24, act := routeAct k.routes (fld w 41 26) (fbit w 25), pid := 0, pc := k.pc.toNat }
    let s := if p.addr % 64 ≠ 0 then s.hazard c 4 6 p.addr 0 0 else s
    (s.updCore c fun k => { k with sends := k.sends ++ [p] }, true)

/-- TSEND (R97, R168). -/
def execTsend (c : Nat) (w : DWord) (s : State) : Out :=
  issue 0x32 c w s [32 + fld w 51 48] [] 1 0 0 false (fun _ s => s.tsend c w) (fun _ s => s) Core.advance

/-- TWAIT waits until A-pad region CR holds CNT bytes; it goes on at once when it does (R97). -/
def execTwait (c : Nat) (w : DWord) (s : State) : Out :=
  issueCore 0x33 c w s [] [] 1 0 false fun k =>
    if (k.circOf 1 (fld w 23 20)).fill ≥ fld w 19 0 then k else { k with wait := .twait (fld w 23 20) (fld w 19 0) }

/-- The awaited bytes have arrived (R97). -/
def execTwaitRelease (c : Nat) (s : State) : Out :=
  if c < 73728 then
    match (s.core c).wait with
    | .twait cr n =>
      if ((s.core c).circOf 1 cr).fill ≥ n then .next (s.updCore c fun k => { k with wait := .none, cycle := s.resumeAt c 0 }) else .next s
    | _ => .next s
  else .fault .noSuchUnit

end Sys2Proof.Machine
end

