-- ==== Sys2Proof/Machine/Replay.lean ====
section
/-!
DEFINITION. Flag words and the exponent table (R55, R66 to R71, R74).
-/
namespace Sys2Proof.Machine

/-- LAST_GROUP of an entry: expert groups report as 2 or 3 (R74). -/
def ExpEntry.code (e : ExpEntry) : Nat := e.group

/-- Change one entry of the exponent table. -/
def Part.updExp (p : Part) (i : Nat) (f : ExpEntry → ExpEntry) : Part := { p with exps := p.exps.modify i f }

/-- e_ref raised for a watermark: e_ref + max(1, W − 30) (R67). -/
def raisedRef (cur : Int) (w : Nat) : Int := cur + ((max 1 (w - 30) : Nat) : Int)

/-- 16-bit two's complement of an integer. -/
def u16 (x : Int) : Nat := (x % 65536).toNat

/-- A flag word with SAT or BXO set reaches the region agents (R66 to R68): the step is abandoned and the entry of the
flagged group rises, unless the second replay was flagged, whose next run takes the 8-bit path (R69). The first flagged
group of a run raises class 0x04, or class 0x05 where the second replay was flagged, in the region agent of r, where the first
core stopped (R73). On the run on the 8-bit activation path no flag is reported (R69). -/
def State.flagGroup (s : State) (p r entry : Nat) (flag : Word) : State :=
  let pt := s.part p
  match pt.exps[entry]? with
  | none => s
  | some e =>
    if e.hit || pt.act8 then s
    else
      let w := flag.toNat / 256 % 64
      let cur := raisedRef e.cur w
      let first := decide (pt.phase = .running)
      let again := decide (pt.runNo < 2)
      let s := s.updPart p fun q =>
        { q.updExp entry fun x => { x with cur := if again then cur else x.cur, quiet := if again then 0 else x.quiet
                                           wNow := max x.wNow w, hit := true, flagged := true } with
          fSat := q.fSat || flag.getLsbD 0, fBxo := q.fBxo || flag.getLsbD 1, fGroup := e.code, fLayer := e.layer
          fMark := w, phase := if first then .replay else q.phase }
      if !first then s
      else if again then
        s.raise (s.regionEv r 0x04 (sp [(0, 1, e.code), (1, 1, e.layer), (2, 1, w), (3, 1, pt.runNo),
          (4, 2, u16 e.cur), (6, 2, u16 cur)]))
      else
        s.raise (s.regionEv r 0x05 (sp [(0, 1, e.code), (1, 1, e.layer), (2, 1, w), (3, 1, pt.runNo), (4, 2, u16 e.cur)]))

/-- A flag word with neither flag set: its watermark counts toward R70. -/
def State.quietGroup (s : State) (p entry : Nat) (flag : Word) : State :=
  s.updPart p fun q => q.updExp entry fun x => { x with wNow := max x.wNow (flag.toNat / 256 % 64) }

/-- The exponent table after a committed step (R70): an entry above its compiled value falls by 1 after 65,536
consecutive committed steps with W at most 28, while DECAY_EN is 1. -/
def ExpEntry.commit (decay : Bool) (e : ExpEntry) : ExpEntry :=
  let quiet := if e.wNow ≤ 28 then e.quiet + 1 else 0
  if decay && decide (quiet ≥ 65536) then
    { e with cur := if e.cur > e.comp then e.cur - 1 else e.cur, quiet := 0 }
  else { e with quiet := quiet }

/-- Entries at the launch of a run: nothing reported yet. -/
def ExpEntry.launch (e : ExpEntry) : ExpEntry := { e with hit := false, wNow := 0 }
/-- Entries at the launch of a new step: no group has flagged, and no slice exponent been seen. -/
def ExpEntry.fresh (e : ExpEntry) : ExpEntry := { e with hit := false, wNow := 0, flagged := false, eSeen := 0 }
/-- The smallest k with n ≤ 2ᵏ. -/
def ceilLog2 (n : Nat) : Nat := if n ≤ 1 then 0 else Nat.log2 (n - 1) + 1
/-- A group on the 8-bit activation path: it flagged in an earlier run of the step (R68). -/
def ExpEntry.onPath (e : ExpEntry) (act8 : Bool) : Bool := act8 && e.flagged
/-- The e_ref a group runs under: its entry, or e_max + E_fix + ceil(log2 N) on the 8-bit activation path, where E_fix is the
highest slice exponent seen in the step's earlier runs (R55, R69). -/
def ExpEntry.ref (e : ExpEntry) (act8 : Bool) : Int :=
  if e.onPath act8 then e.emax + e.eSeen + ceilLog2 (e.nm1 + 1) else e.cur
/-- The compiled value restored (R70, R74, R220). -/
def ExpEntry.restore (e : ExpEntry) : ExpEntry := { e with cur := e.comp, quiet := 0 }

/-- Entries of PREC (R208). -/
def precEntries (bs : List Byte) : List ExpEntry :=
  (List.range (leAt bs 0 2)).map fun i =>
    let x := leAt bs (64 + 8 * i) 8
    let er := sgn16 (x / 2 ^ 32)
    { layer := x % 256, group := x / 2 ^ 8 % 8, wid := x / 2 ^ 11 % 8, mxf := x / 2 ^ 14 % 16, nm1 := x / 2 ^ 22 % 1024
      emax := sgn8 (x / 2 ^ 48), comp := er, cur := er, quiet := 0, wNow := 0, hit := false, flagged := false, eSeen := 0 }

end Sys2Proof.Machine
end

