-- ==== Sys2Proof/Machine/CoreSync.lean ====
section
/-!
DEFINITION. Lattice, credit and synchronisation instructions (R98 to R100, R117, R118, R149).
-/
namespace Sys2Proof.Machine

/-- AB + OFF of format L. -/
def lAddr (k : Core) (w : DWord) : Nat := ((k.areg (fld w 41 38)).toNat + fld w 37 18) % 0x100000

/-- Take a lattice descriptor (R98): one of 16, discarded when it issues fewer than 4 cycles before its slot. -/
def State.takeDesc (s : State) (c : Nat) (w : DWord) (send : Bool) (start : Nat) : State × Bool :=
  let k := s.core c
  if s.descUsed c start ≥ 16 then (s, false)
  else
    let d : LatDesc :=
      { send := send, slot := fld w 53 42, addr := lAddr k w / 64 * 64, two := fbit w 17, pc := k.pc.toNat, done := 0, free := 0 }
    let s := if lAddr k w % 64 ≠ 0 then s.hazard c 4 5 (lAddr k w) 0 0 else s
    let s := if k.desc.any fun x => decide (x.slot = d.slot) && (x.send == d.send) then
        s.hazard c 2 5 d.addr 0 (65536 * d.slot) else s
    if d.slot < start - k.frameStart + 4 then (s, true)
    else (s.updCore c fun k => { k with desc := k.desc ++ [d] }, true)

/-- LSEND offers one or two lanes to a slot (R98). -/
def execLsend (c : Nat) (w : DWord) (s : State) : Out :=
  issue 0x34 c w s [32 + fld w 41 38] [] 1 0 0 false (fun t s => s.takeDesc c w true t) (fun _ s => s) Core.advance
/-- LRECV takes one or two lanes from a slot (R98). -/
def execLrecv (c : Nat) (w : DWord) (s : State) : Out :=
  issue 0x35 c w s [32 + fld w 41 38] [] 1 0 0 false (fun t s => s.takeDesc c w false t) (fun _ s => s) Core.advance

/-- A descriptor instruction stalled on a full table issues in the cycle in which the first descriptor is free (R82, R98). -/
def State.retryDesc (s : State) (c : Nat) : State :=
  match (s.core c).wait with
  | .stall w =>
    if opOf w = 0x34 ∨ opOf w = 0x35 then
      let t := s.resumeAt c ((((s.core c).desc.filterMap (s.descFree c)).min?).getD 0)
      match s.takeDesc c w (decide (opOf w = 0x34)) t with
      | (s, true) => s.updCore c fun k => ({ k with wait := .none, cycle := t + 1, beat := true }).advance
      | (_, false) => s
    else s
  | _ => s

/-- Credits an LPUT needs: 1 for 64 B, 2 for 128 B (R117). -/
def lputNeed (w : DWord) : Nat := if fbit w 17 then 2 else 1

/-- LPUT: consume credit and wait in the LPUT buffer for a credit slot (R117, R149); short of credit it stalls.
Toward a closed seam the counter holds at 0 (R118). -/
def State.lput (s : State) (c : Nat) (w : DWord) : State × Bool :=
  let k := s.core c
  let key := 16 * fld w 16 15 + fld w 14 11
  let have_ := if s.linkClosed c (fld w 16 15) then 0 else tget k.credit 0 key
  if have_ < lputNeed w then (s, false)
  else
    let es := (List.range (lputNeed w)).map fun l =>
      (⟨(lAddr k w / 64 * 64 + 64 * l) % 0x100000, l, fld w 16 15, fld w 14 11, k.pc.toNat⟩ : LputEntry)
    let s := if lAddr k w % 64 ≠ 0 then s.hazard c 4 5 (lAddr k w) 0 0 else s
    (s.updCore c fun k => { k with credit := tset k.credit 0 key (have_ - lputNeed w), lputs := k.lputs ++ es }, true)

/-- LPUT. -/
def execLput (c : Nat) (w : DWord) (s : State) : Out :=
  issue 0x36 c w s [32 + fld w 41 38] [] 1 0 0 false (fun _ s => s.lput c w) (fun _ s => s) Core.advance

/-- Enough credit has returned: a stalled LPUT proceeds (R117). -/
def execLputCreditRelease (c : Nat) (s : State) : Out :=
  if c < 73728 then
    match (s.core c).wait with
    | .stall w =>
      if opOf w = 0x36 then
        match s.lput c w with
        | (s, true) => .next (s.updCore c fun k =>
            ({ k with wait := .none, cycle := s.resumeAt c 0 + 1, beat := true }).advance)
        | (_, false) => .next s
      else .next s
    | _ => .next s
  else .fault .noSuchUnit

/-- Return credits to the neighbour, at most what was released (R117, R118, R149). Over a seam a credit queue with 16 words has no
room, and the LCRD stalls (R82, R153; DEDUCED, log 209). -/
def State.lcrd (s : State) (c : Nat) (w : DWord) : State × Bool :=
  let k := s.core c
  let r := fld w 14 11
  let dir := fld w 16 15
  let lim := tget k.released 0 r / 64
  let n := min (fld w 10 0) lim
  let to_ := if s.linkClosed c dir then none else s.neighbor c dir
  let full := to_.any fun n' => decide (regionOf n' ≠ regionOf c) && decide (16 ≤ (tget (s.core n').creditIn [] ((dir + 2) % 4)).length)
  if full then (s, false)
  else
    let s := s.setCore c { k with released := tupd k.released 0 r (· - 64 * n) }
    let s := if fld w 10 0 > lim then
        (s.coreEvent c 0x0F (sp [(0, 1, 1), (1, 1, r), (2, 1, 2), (4, 2, k.pc.toNat), (8, 4, 64 * fld w 10 0),
          (12, 4, 64 * lim)])).hazard c 3 5 0 0 (65536 * (r + 16 * dir))
      else s
    (match to_ with
     | some n' => s.updCore n' fun k => { k with creditIn := tupd k.creditIn [] ((dir + 2) % 4) (· ++ [(r, n)]) }
     | none => s, true)
/-- LCRD. -/
def execLcrd (c : Nat) (w : DWord) (s : State) : Out :=
  issue 0x37 c w s [] [] 1 0 0 false (fun _ s => s.lcrd c w) (fun _ s => s) Core.advance

/-- BAR: arrive on VC0; with FLG first wait for the engine to drain (R66, R99). -/
def execBar (c : Nat) (w : DWord) (s : State) : Out :=
  issue 0x38 c w s [] [] 1 0 0 false
    (fun _ s =>
      if fbit w 4 && !(s.core c).engDrained then (s, false) else (s.barArrive c (fld w 3 0) (fbit w 4), true))
    (fun _ s => s) Core.advance

/-- BARW waits for the barrier's release (R99). -/
def execBarw (c : Nat) (w : DWord) (s : State) : Out :=
  issueCore 0x39 c w s [fld w 41 37] [] 1 0 false fun k => { k with wait := .barw (fld w 3 0) (fld w 41 37) }

/-- The barrier release reaches a waiting core (R99, R100): SR and LASTFLAG take the flag word, and a flagged word stops
the run and begins the scale replay (R67, R68). `entry` is the exponent table entry of the barrier's group; `err`: the
release fails the check of the core's interface, with these bits of its SAT, BXO and W changed (R169). -/
def execBarwRelease (c entry : Nat) (err : Option Nat) (s : State) : Out :=
  if c < 73728 then
    match (s.core c).wait with
    | .barw bar sr =>
      match s.tree.rels.find? fun r => decide (r.core = c) && decide (r.bar = bar) with
      | none => .next s
      | some r =>
        let x := err.getD 0
        let flag := r.flag ^^^ BitVec.ofNat 32 (x % 4 + 256 * (x / 4 % 64))
        let p := (s.partOf c).getD 0
        let s := { s with tree := { s.tree with rels := s.tree.rels.erase r } }
        let s := match err with
          | some _ => s.coreEventIf false c 0x1C (sp [(0, 1, 0), (1, 1, 3), (2, 2, 0x1000 + c / 72)])
          | none => s
        let s := if err.isSome || r.bad then s.notePartFault p 0x1C else s
        let t := s.resumeAt c 0 + 1
        let s := s.updCore c fun k => { k.setS sr flag with wait := .none, lastFlag := flag, cycle := t }
        if flag.toNat % 4 ≠ 0 then .next ((s.updCore c fun k => { k with run := .stopped }).flagGroup p (regionOf c) entry flag)
        else .next (s.quietGroup p entry flag)
    | _ => .next s
  else .fault .noSuchUnit

/-- WAITC: until FCYC ≥ CNT; at once when already past, which a debug bit-stream reports (R99, R104). -/
def execWaitc (c : Nat) (w : DWord) (s : State) : Out :=
  issue 0x3A c w s [] [] 1 0 0 false
    (fun start s =>
      let f := start - (s.core c).frameStart
      (if f < fld w 11 0 then s.updCore c fun k => { k with wait := .waitc (fld w 11 0) }
       else if f > fld w 11 0 then s.hazard c 7 0 0 0 0 else s, true))
    (fun _ s => s) Core.advance

/-- FCYC has reached the awaited cycle (R99). -/
def execWaitcRelease (c : Nat) (s : State) : Out :=
  if c < 73728 then
    match (s.core c).wait with
    | .waitc n => .next (s.updCore c fun k => { k with wait := .none, cycle := max k.cycle (k.frameStart + n) })
    | _ => .next s
  else .fault .noSuchUnit

/-- WAITF waits for the next slot frame; FRAME_BOUNDARY releases it (R99, R142). -/
def execWaitf (c : Nat) (w : DWord) (s : State) : Out :=
  issueCore 0x3B c w s [] [] 1 0 false fun k => { k with wait := .waitf }

/-- Drop descriptors that are done with: LSENDs whose slot's entries lie behind the region's count, LRECVs that are free (R98,
R145). -/
def State.pruneDesc (s : State) (c : Nat) : State :=
  let n := (s.region (regionOf c)).net
  s.updCore c fun k => { k with desc := k.desc.filter fun d =>
    if d.send = true then decide (n.exec ≤ n.count + (d.slot + 1) % 65536) else s.descBusy c n.exec d }

/-- The units a FENCE mask names have completed: bit 1 vault, 2 lattice, 3 tree (R80, R99). Movement completes by a cycle. -/
def State.fenced (s : State) (c m : Nat) : Bool :=
  let k := s.core c
  (!m.testBit 1 || k.vq.isEmpty) && (!m.testBit 2 || (s.descDone c && k.lputs.isEmpty))
    && (!m.testBit 3 || k.sends.isEmpty)

/-- Cycle by which every pad write of the movement unit has landed (R97, R99). -/
def Core.movesDone (k : Core) : Nat :=
  (k.padWrites.filter fun p => decide (p.unit = 3)).foldl (fun m p => max m p.lands) k.moveFree

/-- FENCE (R99). -/
def execFence (c : Nat) (w : DWord) (s : State) : Out :=
  issueCore 0x3C c w s [] [] 1 0 false fun k => { k with wait := .fence (fld w 3 0) }

/-- The fenced operations have completed (R99). -/
def execFenceRelease (c : Nat) (s : State) : Out :=
  if c < 73728 then
    match (s.core c).wait with
    | .fence m =>
      if s.fenced c m then
        let t := s.resumeAt c (max (if m.testBit 0 then (s.core c).movesDone else 0) (if m.testBit 2 then (s.core c).recvsFree else 0))
        .next (s.updCore c fun k => { k with wait := .none, cycle := t })
      else .next s
    | _ => .next s
  else .fault .noSuchUnit

/-- EVT raises class 0x0B with its code and the PC (R99, R103). -/
def execEvt (c : Nat) (w : DWord) (s : State) : Out :=
  issue 0x3D c w s [] [] 1 0 0 false
    (fun start s =>
      (s.coreEvent c 0x0B (sp [(0, 2, fld w 15 0), (4, 2, (s.core c).pc.toNat), (8, 4, start)]), true))
    (fun _ s => s) Core.advance

end Sys2Proof.Machine
end

