-- ==== Sys2Proof/Machine/Lull.lean ====
section
/-!
DEFINITION. Ratio changes (R358, R359, R380) and the lulls due at a frame boundary (R380 to R382, R384, R398).
-/
namespace Sys2Proof.Machine

/-- A region's clock ratio changes (R359): class 0x26 with old and new K and the cause, RGN_CLK_STEPS and MINK follow. -/
def State.setRatio (s : State) (r k cause : Nat) : State :=
  let old := (s.region r).clk.k
  if k = old then s
  else
    let s := s.updRegion r fun g =>
      { g with clk := { g.clk with k := k, quiet := s.clk.wtime, minK := min g.clk.minK k
                                   up := if old < k then min 0xFFFF (g.clk.up + 1) else g.clk.up
                                   down := if k < old then min 0xFFFF (g.clk.down + 1) else g.clk.down } }
    s.raise (s.regionEv r 0x26 (sp [(0, 1, old), (1, 1, k), (2, 1, cause)]))

/-- Lull cycles after a frame of f cycles for a share num ÷ (num + den) of the time, rounded up (R380, R398). -/
def lullCycles (f num den : Nat) : Nat := if den = 0 then 0 else (f * num + den - 1) / den

/-- Lull cycles a demand needs at ratio k' when it was stated at ratio k (R380): the dynamic current falls with K. -/
def Lull.at (l : Lull) (f k k' : Nat) : Nat :=
  if l.den = 0 then 0
  else
    let cut := if k = 0 then 0 else l.dyn * (k - k') / k
    lullCycles f (l.num - cut) l.den

/-- The highest ratio not above k and not below the floor at which the lull fits, else the floor (R380). -/
def Lull.fit (l : Lull) (f k floor lim : Nat) : Nat → Nat
  | 0 => floor
  | n + 1 => if l.at f k (floor + n + 1) ≤ lim ∧ floor + n + 1 ≤ k then floor + n + 1 else l.fit f k floor lim n

/-- Period of a region's clock in ps at ratio k: 1 ÷ (87.5 MHz × k) (R355). -/
def periodPs (k : Nat) : Nat := if k = 0 then 0 else 1000000 * 10 / (875 * k)

/-- The ratio of region r falls to k' one step at a time, each with class 0x26, and with class 0x24 and the lull that the
demand needs at it (R359, R380). -/
def State.lowerRatio (s : State) (r : Nat) (l : Lull) (f k k' : Nat) : Nat → State
  | 0 => s
  | n + 1 =>
    let j := (s.region r).clk.k - 1
    if k' ≤ j ∧ k' < (s.region r).clk.k then
      State.lowerRatio ((s.setRatio r j 4).raise (s.regionEv r 0x24 (sp [(0, 1, 1), (4, 4, l.at f k j), (8, 1, j)]))) r l f k k' n
    else s

/-- The lull due at a frame boundary of region r (R382): the largest of the power-cap, forced, pre-emptive and thermal
lulls. A power-cap lull is cut at LULL_MAX and its shortfall delays the next launch (R381); for the others the ratio
falls until the lull fits, and at K_floor the lull may exceed LULL_MAX with class 0x24 (R380, R398). -/
def State.insertLull (s : State) (r : Nat) : State :=
  match (s.region r).part with
  | none => s
  | some p =>
    let pt := s.part p
    let g := s.region r
    let f := s.frameLen r
    let k := g.clk.k
    let cap := lullCycles f pt.lullShare (256 - pt.lullShare)
    let thermal : Lull :=
      if tget s.thm.hotRgn 64 p = r then ⟨pt.thmShare, 32 - pt.thmShare, 32⟩ else ⟨0, 0, 0⟩
    let others := [g.pwr.forced, g.pwr.gust, thermal]
    let worst := others.foldl (fun (a : Lull) l => if a.at f k k < l.at f k k then l else a) ⟨0, 0, 0⟩
    let lowest := (List.range 64).find? fun i => decide ((s.region i).part = some p)
    let fits := fun n => decide (pt.lullMax = 0 ∨ n ≤ pt.lullMax)
    let k' := if fits (worst.at f k k) then k else worst.fit f k g.clk.kFloor pt.lullMax (k - g.clk.kFloor)
    let need := worst.at f k k'
    let s := s.lowerRatio r worst f k k' 16
    let s := if fits need then s else s.raise (s.regionEv r 0x24 (sp [(0, 1, 0), (4, 4, need), (8, 1, k')]))
    let capped := if fits cap then cap else pt.lullMax
    let n := max need capped
    let s := if lowest = some r then
        s.updPart p fun q => { q with powLull := if need ≤ capped then satAdd q.powLull n else q.powLull
                                      lullNeed := q.lullNeed + (cap - n) * periodPs k' }
      else s
    s.updRegion r fun g => { g with pwr := { g.pwr with lull := satAdd g.pwr.lull n } }

end Sys2Proof.Machine
end

