-- ==== Sys2Proof/Machine/RegionOps.lean ====
section
/-!
DEFINITION. A region's power state, clock and pad banks as holds, loads and stops change them (R18, R110, R360, R383).
-/
namespace Sys2Proof.Machine

/-- VCORE at its set point: IDLE or RUN. -/
def pwrUp (x : Nat) : Bool := decide (x = 2) || decide (x = 3)

/-- The three other regions of a region's skein: in its row, in its column and across (R16, R164). -/
def skeinOthers (r : Nat) : List Nat :=
  let i := r / 8
  let j := r % 8
  let i' := i + 1 - 2 * (i % 2)
  let j' := j + 1 - 2 * (j % 2)
  [8 * i + j', 8 * i' + j, 8 * i' + j']
/-- The skein copper links of region r, and the other regions' to it, close or open with their VCOREs (R181, R184). -/
def State.setCopper (s : State) (r : Nat) : State :=
  (r :: skeinOthers r).foldl (fun s a =>
    let closed := (skeinOthers a).zipIdx.foldl (fun n (b, k) => if s.vcoreUp a && s.vcoreUp b then n else n + 2 ^ k) 0
    s.updNet a fun n => { n with copper := BitVec.ofNat 3 closed }) s
/-- A region changes power state: class 0x23, the register snapshot of R461 as it leaves IDLE or RUN, and in OFF the VCORE
record starts again (R388). -/
def State.setPwr (s : State) (r new : Nat) : State :=
  let g := s.region r
  let old := g.pwr.state
  if old = new then s
  else
    let s := if pwrUp old && !pwrUp new then
        { s with snaps := tset s.snaps none r (some ⟨g, (List.range 16).map fun i => s.cluster (16 * r + i)⟩) }
      else if pwrUp new then { s with snaps := tset s.snaps none r none } else s
    let s := s.updRegion r fun g =>
      if new = 0 then { g with pwr := { g.pwr with state := 0, vmin := 0x3FF, vminCl := 0, vminAt := 0, vcore := 0, vcoreCl := 0 } }
      else { g with pwr := { g.pwr with state := new } }
    let s := if pwrUp old == pwrUp new then s else s.setCopper r
    s.raise (s.regionEv r 0x23 (sp [(0, 1, old), (1, 1, new)]))

/-- The region clock starts at K = 8 and ramps toward K_cap (R360). -/
def State.startClock (s : State) (r : Nat) : State :=
  s.updRegion r fun g => if g.clk.k ≠ 0 then g else
    { g with clk := { g.clk with k := 8, quiet := s.clk.wtime, consec := 0, stopped := false, ramp := true, minK := min g.clk.minK 8 } }
/-- The region clock is held stopped (R360). -/
def State.stopClock (s : State) (r : Nat) : State :=
  s.updRegion r fun g => { g with clk := { g.clk with k := 0, consec := 0, stopped := true, ramp := false } }

/-- RET of RGN_CL_PAD_BANKS in every cluster: the ON banks are held in RETENTION, or ON again (R110). -/
def State.setRet (s : State) (r : Nat) (ret : Bool) : State :=
  (List.range 16).foldl (fun s i => s.updCluster (16 * r + i) fun u =>
    { u with banks := if ret then u.banks ||| 0x4000000 else u.banks &&& ~~~(0x4000000 : Word) }) s

/-- A region of a running partition: banks ON, RUN, rclk running (R110, R383). -/
def State.wakeRegion (s : State) (r : Nat) : State :=
  if (s.region r).pwr.state = 2 then ((s.setRet r false).setPwr r 3).startClock r else s
/-- A region of a held partition or of none: banks in RETENTION, rclk stopped, IDLE (R110, R360, R383). -/
def State.idleRegion (s : State) (r : Nat) : State :=
  if (s.region r).pwr.state = 3 then ((s.setRet r true).stopClock r).setPwr r 2 else s

/-- A region of the partition has a clock fault that awaits its restart (R363). -/
def State.clockDown (s : State) (p : Nat) : Bool :=
  (s.regions.any fun x => decide (x.2.part = some p) && decide (x.2.clk.restartAt ≠ 0))
/-- Order a region's power-on (R384, R385): from OFF or from RETAIN. -/
def State.askPower (s : State) (r : Nat) : State :=
  let g := s.region r
  if g.pwr.state ≤ 1 ∧ !g.agt.unusable ∧ !(s.pwr.ons.any fun o => decide (o.region = r)) then
    let s := s.updRegion r fun g => { g with pwr := { g.pwr with tries := 0 } }
    { s with pwr := { s.pwr with ons := s.pwr.ons ++ [⟨r, s.clk.wtime, decide (g.pwr.state = 0), 0, 0⟩] } }
  else s

end Sys2Proof.Machine
end

