-- ==== Sys2Proof/Machine/TreeNet.lean ====
section
/-!
DEFINITION. The express tree (R164 to R182).
Switches are numbered: cluster ports 0 to 1,023, region switches 1,024 + r, trunks 1,088 + 2 q + letter, root halves
1,096 and 1,097, the edge port 1,100.
-/
namespace Sys2Proof.Machine

/-- Quadrant of a region (R164). -/
def quadrant (r : Nat) : Nat := 2 * (r / 8 / 4) + r % 8 / 4
/-- Skein of a region (R16: 4 × (i div 2) + (j div 2)). -/
def skein (r : Nat) : Nat := 4 * (r / 8 / 2) + r % 8 / 2
/-- Host regions of the trunks and root halves, by hosted-switch index (R165). -/
def hostRegions : List Nat := [9, 18, 13, 22, 41, 50, 45, 54, 27, 36]
/-- A hosted switch takes new packets: it is in service, and its host region's VCORE is up (R165, R180). -/
def State.swUp (s : State) (h : Nat) : Bool := decide (tget s.tree.hosts 0 h = 0) && s.vcoreUp (hostRegions.getD h 0)
/-- The other switch of a pair. -/
def pairOf (h : Nat) : Nat := if h % 2 = 0 then h + 1 else h - 1
/-- The parent taken for hosted switch h: the second of its pair while the first is out of service (R174, R180). A switch that
already holds part of the collective, as `held` tells of a switch number, keeps it. -/
def State.parentOf (s : State) (h : Nat) (held : Nat → Bool) : Nat :=
  if held (1088 + h) then h
  else if held (1088 + pairOf h) then pairOf h
  else if !s.swUp h && s.swUp (pairOf h) then pairOf h else h
/-- Trunk of a quadrant by letter (0 A, 1 B), or its second parent. -/
def State.trunkOf (s : State) (q l : Nat) (held : Nat → Bool := fun _ => false) : Nat := 1088 + s.parentOf (2 * q + l) held
/-- Root half, or the other. -/
def State.rootOf (s : State) (h : Nat) (held : Nat → Bool := fun _ => false) : Nat := 1088 + s.parentOf (8 + h) held
/-- A node is powered and clocked: its region's VCORE is up, or its host's (R165, R181). The edge always is. -/
def State.nodeUp (s : State) (sw : Nat) : Bool :=
  if sw < 1024 then s.vcoreUp (sw / 16) else if sw < 1088 then s.vcoreUp (sw - 1024)
  else if sw < 1098 then s.vcoreUp (hostRegions.getD (sw - 1088) 0) else true
/-- Switch identifier of R204. -/
def swIdent (sw : Nat) : Nat :=
  if sw < 1024 then 0x1000 + sw else if sw < 1088 then sw - 1024 else if sw < 1096 then 0x100 + (sw - 1088)
  else 0x200 + (sw - 1096)
/-- Region a switch sits in, for its events. -/
def swRegion (sw : Nat) : Nat :=
  if sw < 1024 then sw / 16 else if sw < 1088 then sw - 1024 else hostRegions.getD (sw - 1088) 0

/-- Next switch toward region rd, whose letter of the trunks is `l` (R166, R174); within the region, `leaf`. -/
def State.hopTo (s : State) (sw rd l leaf : Nat) : Nat :=
  if sw < 1024 then 1024 + sw / 16
  else if sw < 1088 then
    let r := sw - 1024
    if r = rd then leaf else if skein r = skein rd then 1024 + rd else s.trunkOf (quadrant r) l
  else if sw < 1096 then
    if (sw - 1088) / 2 = quadrant rd then 1024 + rd else s.rootOf ((sw - 1088) % 2)
  else if sw < 1098 then s.trunkOf (quadrant rd) (sw - 1096)
  else s.rootOf l
/-- Next switch of a GRP = 0 packet that goes to the core at (x, y) of `dest` (R174). -/
def State.nextHop (s : State) (sw dest : Nat) : Nat :=
  let u := clusterAt (dest % 256) (dest / 256 % 256)
  s.hopTo sw (u / 16) (u / 16 % 2) u
/-- Next switch of a packet of types 6 and 7 to an endpoint (R166, R168): a region agent at its region switch, any other behind the
edge port. DESIGN CHOICE, log 215: the code's parity names the trunk where the path rises. -/
def State.endHop (s : State) (sw code : Nat) : Nat :=
  if code < 64 then s.hopTo sw code (code % 2) (20000 + code)
  else if sw < 1024 then 1024 + sw / 16
  else if sw < 1088 then s.trunkOf (quadrant (sw - 1024)) (code % 2)
  else if sw < 1096 then s.rootOf ((sw - 1088) % 2)
  else 1100

/-- Outputs named by an output set at a switch (R205), each once; `held`: the switch holds part of the sum the flit joins. -/
def State.groupOuts (s : State) (sw out : Nat) (held : Nat → Bool := fun _ => false) : List Nat :=
  let on := fun i => out.testBit i
  (if sw < 1088 then
    let r := sw - 1024
    let i := r / 8
    let j := r % 8
    ((List.range 16).filter on).map (fun i => 16 * r + i)
      ++ (if on 16 then [s.trunkOf (quadrant r) 0 held] else []) ++ (if on 17 then [s.trunkOf (quadrant r) 1 held] else [])
      ++ (if on 18 then [1024 + 8 * i + (j + 1 - 2 * (j % 2))] else [])
      ++ (if on 19 then [1024 + 8 * (i + 1 - 2 * (i % 2)) + j] else [])
      ++ (if on 20 then [1024 + 8 * (i + 1 - 2 * (i % 2)) + (j + 1 - 2 * (j % 2))] else [])
  else if sw < 1096 then
    let q := (sw - 1088) / 2
    ((List.range 16).filter on).map (fun k => 1024 + 8 * (4 * (q / 2) + k / 4) + 4 * (q % 2) + k % 4)
      ++ (if on 16 then [s.rootOf 0 held] else []) ++ (if on 17 then [s.rootOf 1 held] else [])
  else
    ((List.range 8).filter on).map (fun k => s.trunkOf (k / 2) (k % 2) held) ++ (if on 8 then [1100] else [])).eraseDups

/-- Change the tree. -/
def State.updTree (s : State) (f : Tree → Tree) : State := { s with tree := f s.tree }

/-! ### The lane word (R167) -/

/-- CRC-16 of R167 over bytes from a start value: each byte enters at its most significant bit (PRESUMED, log 216). -/
def crc16 (init : Nat) (bs : List Byte) : Nat :=
  bs.foldl (fun c b => (List.range 8).foldl (fun c _ => if c.testBit 15 then (2 * c % 65536) ^^^ 0x1021 else 2 * c) (c ^^^ 256 * b.toNat)) init
/-- CTRL of a flit: that of a head, or of a body flit. -/
def Flit.ctrl (f : Flit) : Nat :=
  f.vc % 4 + 8 * f.tail.toNat + 2 ^ 54 * f.shadow.toNat +
  (if f.idx = 0 then
    4 + 16 * (f.typ % 8) + 128 * (f.part % 16) + 2 ^ 11 * ((f.len - 1) % 64) + 2 ^ 17 * (f.dest % 65536) + 2 ^ 33 * f.grp.toNat
      + 2 ^ 34 * f.act.toNat + (if f.typ = 4 ∨ f.typ = 5 then 2 ^ 35 * (f.aux % 2 ^ 19) else 0) + 2 ^ 62 * f.sys.toNat
  else 16 * (f.idx % 64))
/-- The 592-bit lane word. -/
def Flit.word (f : Flit) : Nat :=
  leNat (f.data.take 64) + 2 ^ 512 * f.ctrl + 2 ^ 576 * (crc16 0xFFFF (f.data.take 64 ++ leBytes 8 f.ctrl) ^^^ f.crcErr % 65536)
/-- A flit as received with bits of its lane word changed. The CRC is linear: what it differs by follows from the changed bits. -/
def Flit.damaged (f : Flit) (x : Nat) : Flit :=
  let c := x / 2 ^ 512
  let h := decide (f.idx = 0)
  let g : Flit :=
    { f with vc := f.vc ^^^ c % 4, tail := f.tail != c.testBit 3, shadow := f.shadow ^^^ BitVec.ofNat 8 (c / 2 ^ 54)
             data := flipData f.data x, crcErr := f.crcErr ^^^ (crc16 0 (leBytes 72 (x % 2 ^ 576)) ^^^ x / 2 ^ 576 % 65536) }
  if h then
    { g with typ := f.typ ^^^ c / 16 % 8, part := f.part ^^^ c / 128 % 16, len := f.len ^^^ c / 2 ^ 11 % 64
             dest := f.dest ^^^ c / 2 ^ 17 % 65536, grp := f.grp != c.testBit 33, act := f.act != c.testBit 34
             aux := f.aux ^^^ c / 2 ^ 35 % 2 ^ 19, sys := f.sys != c.testBit 62 }
  else { g with idx := f.idx ^^^ c / 16 % 64 }

/-- The core of a cluster that a flit comes from or goes to, where there is one (R184). -/
def State.flitCore (s : State) (u : Nat) (f : Flit) : Option Nat :=
  if f.from_ ≥ 10000 then (if f.src / 72 = u then some f.src else none)
  else if f.grp ∨ f.typ ≥ 6 then none
  else
    let c := s.physAt (f.dest % 256) (f.dest / 256 % 256)
    if c / 72 = u then some c else none
/-- Class 0x1C or 0x1D at a switch or cluster port (R184). -/
def State.treeEvent (s : State) (sw : Nat) (core : Option Nat) (cls : Nat) (spec : Fields) : State :=
  if sw < 1024 then
    match core with
    | some c => s.coreEventIf false c cls spec
    | none => (s.updCluster sw fun u => u.note cls (u.treStat.toNat / 256 % 128)).raise (s.clusterEv sw cls spec)
  else s.raise (s.regionEv (swRegion sw) cls spec)

/-- Group entry of a partition's group at a switch (R175). -/
def State.groupAt (s : State) (sw part g : Nat) : Option GroupEntry :=
  s.tree.groups.find? fun e => decide (e.sw = sw) && decide (e.part = part) && decide (e.group = g)

/-- Count a flit that leaves a switch for another (R184). -/
def State.countFlit (s : State) (from_ to_ : Nat) : State :=
  if from_ < 1024 then s.updCluster from_ fun u => { u with treFlits := u.treFlits + 1 }
  else if from_ < 1088 ∧ 1088 ≤ to_ then
    s.updNet (from_ - 1024) fun n => if to_ % 2 = 0 then { n with upA := n.upA + 1 } else { n with upB := n.upB + 1 }
  else if 1088 ≤ from_ then s.updNet (swRegion from_) fun n => { n with hostFlits := n.hostFlits + 1 }
  else s
/-! ### Links, lanes and buffers (R164, R170 to R173) -/

/-- Lanes of a link (R164). -/
def linkLanes (a b : Nat) : Nat :=
  if max a b ≥ 10000 then 1 else if min a b < 1024 then 4 else if max a b < 1096 then 8 else if max a b < 1098 then 16 else 8
/-- Lane a flit takes on a link (R172). VC1: its route's, on a region's links with a trunk within the four lanes of the trunk's
letter. DESIGN CHOICE, log 217: a VC1 packet without a group entry, whose route names no lane, takes the hash of VC2 and VC3. -/
def State.laneOf (s : State) (a b : Nat) (f : Flit) : Nat :=
  let n := linkLanes a b
  if f.vc = 0 then if n = 16 then f.part % 16 else 0
  else
    let h := Config.laneHash f.src f.dest
    let h := if f.vc = 1 ∧ f.grp then ((s.groupAt (if a < 1024 then 1024 + a / 16 else a) f.part (f.dest % 4096)).map (·.lane)).getD h else h
    if f.vc = 1 ∧ 1088 ≤ max a b ∧ max a b < 1096 ∧ min a b < 1088 then 4 * (max a b % 2) + h % 4 else h % n
/-- Put a flit into the output of a node toward another. -/
def State.sendFlit (s : State) (f : Flit) (from_ to_ : Nat) : State :=
  s.updTree fun t => { t with flits := t.flits ++ [{ f with sw := to_, from_ := from_, lane := s.laneOf from_ to_ f }] }

/-- Entries that a channel holds of the buffer of a node's input lane (R171): a flit that leaves by several outputs holds one. -/
def Tree.bufUsed (t : Tree) (at_ from_ lane vc : Nat) : Nat :=
  (((t.flits ++ t.deliver).filter fun g => decide (g.from_ = at_) && decide (g.prev = from_) && decide (g.inLane = lane)
    && decide (g.vc = vc)).map fun g => (g.pid, g.idx)).eraseDups.length
/-- The input lane has an entry for a flit of a channel (R171): 4 for VC0, 16 for VC1, 4 for VC3 and 40 shared. -/
def Tree.room (t : Tree) (at_ from_ lane vc : Nat) : Bool :=
  let n := t.bufUsed at_ from_ lane
  let shared := decide ((n 1 - 16) + n 2 + (n 3 - 4) < 40)
  if at_ ≥ 1098 then true
  else match vc with
    | 0 => decide (n 0 < 4)
    | 1 => decide (n 1 < 16) || shared
    | 3 => decide (n 3 < 4) || shared
    | _ => shared
/-- Order in which an output lane serves its flits: VC0, then SYS of VC0, VC1, VC3, VC2 (R170). -/
def laneOrder (vc : Nat) (sys : Bool) : Nat := if vc = 0 then sys.toNat else if vc = 1 then 2 else if vc = 3 then 3 else 4
/-- Two flits wait for one lane of a link. -/
def sameLane (f g : Flit) : Bool := decide (f.from_ = g.from_) && decide (f.sw = g.sw) && decide (f.lane = g.lane)
/-- Its channel's turn on the lane is a flit's, one packet at a time from head to tail, and there is room for it (R170, R171). -/
def Tree.ready (t : Tree) (f : Flit) : Bool :=
  (match t.busy.find? fun b => decide (b.from_ = f.from_) && decide (b.sw = f.sw) && decide (b.lane = f.lane) && decide (b.vc = f.vc) with
   | some b => decide (b.pid = f.pid)
   | none => true) && t.room f.sw f.from_ f.lane f.vc
/-- A barrier arrival waits to cross the lane. -/
def Tree.barrierFirst (t : Tree) (f : Flit) : Bool :=
  t.barMsgs.any fun m => decide (m.from_ = f.from_) && decide (m.sw = f.sw) && decide (f.lane = if linkLanes m.from_ m.sw = 16 then m.part % 16 else 0)
/-- The next flit of a channel that crosses a link to a switch: one whose lane has nothing ready of a higher order (R170). -/
def Tree.crossing (t : Tree) (sw vc : Nat) : Option Flit :=
  t.flits.find? fun f => decide (f.sw = sw) && decide (f.vc = vc) && t.ready f && !t.barrierFirst f
    && t.flits.all fun g => !(sameLane f g && decide (laneOrder g.vc g.sys < laneOrder f.vc f.sys) && t.ready g)
/-- A flit has crossed: its lane is its packet's until the tail. -/
def Tree.crossed (t : Tree) (f : Flit) : Tree :=
  let rest := t.busy.filter fun b => !(decide (b.from_ = f.from_) && decide (b.sw = f.sw) && decide (b.lane = f.lane) && decide (b.vc = f.vc))
  { t with flits := t.flits.erase f, busy := if f.tail then rest else rest ++ [⟨f.from_, f.sw, f.lane, f.vc, f.pid, f.typ, f.part⟩] }

/-- FP32 words of a flit. -/
def flitF (bs : List Byte) : List Word := (chunks 4 16 bs).map fun b => BitVec.ofNat 32 (leNat b)
/-- FP32 addition of the switches: NaN propagates as the quiet NaN, subnormals flush (R176). -/
def treeAdd (a b : List Word) : List Word := List.zipWith fAdd a b

/-- Combine a type 1 flit at a switch whose entry has k ≥ 2; the sum is sent on at the k-th (R176). -/
def State.reduceAt (s : State) (sw k : Nat) (f : Flit) : State × Option Flit :=
  let same := fun (r : RedSlot) => decide (r.sw = sw) && decide (r.part = f.part) && decide (r.group = f.dest)
    && decide (r.idx = f.idx)
  match s.tree.reds.find? same with
  | none =>
    (s.updTree fun t => { t with reds := t.reds ++ [⟨sw, f.part, f.dest, f.idx, 1, flitF f.data, f.bad⟩] }, none)
  | some r =>
    let sum := treeAdd r.sum (flitF f.data)
    if r.got + 1 ≥ k then
      (s.updTree fun t => { t with reds := t.reds.erase r }, some
        { f with data := sum.flatMap fun w => leBytes 4 w.toNat, crcErr := 0, bad := f.bad || r.bad })
    else
      (s.updTree fun t => { t with reds := t.reds.map fun x => if x = r then { r with got := r.got + 1, sum := sum, bad := r.bad || f.bad } else x },
        none)

/-- Refuse a delivery with class 0x1D (R174, R206): cause 0 PART, 1 RED on VC2, 2 oversized VC3, 3 disabled inbox. -/
def State.refuseDelivery (s : State) (u cause : Nat) (f : Flit) : State :=
  s.treeEvent u (s.flitCore u f) 0x1D (sp [(0, 1, cause), (1, 1, f.part), (2, 2, f.dest)])

/-- A flit of types 0 and 1 from above reaches a cluster port: one delivery per receiving core (R174, R175, R206). A packet is refused
once, at its head (DEDUCED, log 218), and a group without an entry at the port delivers nothing (DESIGN CHOICE, log 219). -/
def State.atPort (s : State) (u : Nat) (f : Flit) : State :=
  let own := (s.region (u / 16)).part
  if own ≠ some f.part then (if f.idx = 0 then s.refuseDelivery u 0 f else s)
  else if f.typ = 0 ∧ f.vc = 2 ∧ f.aux = 1 then (if f.idx = 0 then s.refuseDelivery u 1 f else s)
  else if f.grp then
    match s.groupAt u f.part (f.dest % 4096) with
    | none => s
    | some g =>
      let fs := ((List.range 64).filter fun i => g.cores.getLsbD i).map fun i =>
        { f with dest := s.physOf u (i / 8) (i % 8), aux := g.cr }
      s.updTree fun t => { t with deliver := t.deliver ++ fs }
  else
    let c := s.physAt (f.dest % 256) (f.dest / 256 % 256)
    let box := if f.vc = 2 then (s.core c).inbox2 else (s.core c).inbox1
    if !box.getLsbD 7 then (if f.idx = 0 then s.refuseDelivery u 3 f else s)
    else s.updTree fun t => { t with deliver := t.deliver ++ [{ f with dest := c, aux := box.toNat % 16 }] }

/-! ### Packets that are acknowledged, and endpoints (R168, R169, R177) -/

/-- 20 µs in WTIME ticks. -/
def ackTicks : Nat := 3500
/-- The switch an endpoint, or a vault service port, hands its packets to, which is the node that holds them. -/
def entryNode (n : Nat) : Nat := if n ≥ 30000 then n - 30000 else if n < 20064 then 1024 + (n - 20000) else 1100
/-- Put a packet into the tree at its source. -/
def State.putPacket (s : State) (a : AckWait) : State :=
  let pid := s.tree.nextPid
  let n := entryNode a.src
  (a.lines.zipIdx.foldl (fun s (bs, i) =>
    let f : Flit :=
      { sw := 0, from_ := n, prev := a.src, inLane := 0, lane := 0, pid := pid, src := a.src, vc := a.vc, typ := a.typ, part := a.part
        len := a.lines.length, idx := i, tail := decide (i + 1 = a.lines.length), dest := a.dest, grp := false, act := false, aux := a.aux
        shadow := 0, sys := a.sys, seqno := a.seqno, data := bs ++ List.replicate (64 - bs.length) 0, crcErr := 0, bad := false }
    s.sendFlit f n (if a.typ < 6 then s.nextHop n a.dest else s.endHop n a.dest)) s).updTree fun t => { t with nextPid := pid + 1 }
/-- Send a packet of types 4 to 6 on VC2 or VC3 and await its ACK (R177). One on VC3 of more than 4 flits is refused where it is
offered, with class 0x1D (R170). -/
def State.sendAcked (s : State) (src typ vc dest part : Nat) (sys : Bool) (aux : Nat) (lines : List (List Byte)) : State :=
  if vc = 3 ∧ 4 < lines.length then
    s.raise ((if src < 20064 then s.regionEv (src - 20000) else if src ≥ 30000 then s.clusterEv (src - 30000) else s.edgeEv) 0x1D
      (sp [(0, 1, 2), (1, 1, part), (2, 2, dest)]))
  else
    let n := (s.tree.nextSeq + 1) % 2 ^ 32
    let a : AckWait :=
      { src := src, typ := typ, vc := vc, dest := dest, part := part, sys := sys, aux := aux
        lines := if typ = 6 then lines.modify 0 (fun b => leBytes 4 n ++ b.drop 4) else lines
        seqno := n, sends := 0, due := s.clk.wtime + ackTicks }
    (s.updTree fun t => { t with nextSeq := n, acks := t.acks ++ [a] }).putPacket a
/-- The receiver of a packet sends its ACK to the packet's source (R168): DATA holds the burst index, or the sequence number. -/
def State.sendAck (s : State) (node : Nat) (f : Flit) : State :=
  s.putPacket { src := if node < 1024 then 30000 + node else if node < 1088 then 20000 + (node - 1024) else 20000 + f.dest
                typ := 7, vc := f.vc, dest := if f.src ≥ 30000 then (f.src - 30000) / 16 else f.src - 20000
                part := f.part, sys := f.sys, aux := 0, lines := [leBytes 4 (if f.typ = 6 then f.seqno else f.aux)], seqno := f.seqno
                sends := 0, due := 0 }
/-- A VREQ at a vault service port: the bursts are read through the second port and go to the return endpoint in EMSGs, 63 to a
packet (DEDUCED, log 220: R168 gives a read's request and no form for its answer). -/
def State.portReads (s : State) (u c : Nat) (f : Flit) (q : Nat) : State :=
  let first := q % 2 ^ 19
  let n := q / 2 ^ 19 % 4096 + 1
  let (s, ls) := (List.range n).foldl (fun (a : State × List (List Byte)) i =>
    let (s, bs, _) := a.1.vaultRead c ((first + i) % 2 ^ 19) 1
    (s, a.2 ++ [bs])) (s, [])
  (List.range ((n + 62) / 63)).foldl (fun s k =>
    s.sendAcked (30000 + u) 6 2 (q / 2 ^ 32 % 65536) f.part f.sys 0 (List.replicate 64 0 :: (ls.drop (63 * k)).take 63)) s
/-- A whole packet of types 4 to 6 has reached its endpoint: bursts are written, a read is made, and a message is taken once; each is
acknowledged (R168, R177). -/
def State.packetIn (s : State) (node : Nat) (f : Flit) (lines : List (List Byte)) : State :=
  let c := s.physAt (f.dest % 256) (f.dest / 256 % 256)
  let s := if f.typ = 4 then s.portWrite c f.aux lines
    else if f.typ = 5 then s.portReads node c f (leNat ((lines.headD []).take 8))
    else s.updTree fun t => { t with seen := if t.seen.contains (f.dest, f.seqno) then t.seen else t.seen ++ [(f.dest, f.seqno)] }
  s.sendAck node f
/-- A flit of types 4 to 7 at its endpoint: the packet is gathered, and dropped whole where a flit of it fails its check (R169). -/
def State.atEndpoint (s : State) (node : Nat) (f : Flit) : State :=
  if f.typ = 7 then (if f.bad then s else s.updTree fun t => { t with ackIn := t.ackIn ++ [f.seqno] })
  else
    let same := fun (x : PortPacket) => decide (x.node = node) && decide (x.pid = f.pid)
    let x := (s.tree.asm.find? same).getD ⟨node, f.pid, [], false⟩
    let x := { x with lines := x.lines ++ [f.data], bad := x.bad || f.bad }
    let s := s.updTree fun t => { t with asm := (t.asm.filter fun y => !same y) ++ if f.tail then [] else [x] }
    if f.tail ∧ !x.bad then s.packetIn node f x.lines else s

/-! ### Switches (R174 to R176) -/

/-- Where a packet's head goes from a node (R174, R175); `up`: it has entered a cluster port from below. A group without an entry
leads nowhere, but up from a cluster port (DESIGN CHOICE, log 219). -/
def State.outsOf (s : State) (sw : Nat) (up : Bool) (f : Flit) : List Nat :=
  if sw ≥ 1098 then []
  else if f.typ ≥ 6 then [s.endHop sw f.dest]
  else if sw < 1024 ∧ !up then []
  else if f.grp ∧ f.typ < 4 then
    if up then [1024 + sw / 16]
    else match s.groupAt sw f.part (f.dest % 4096) with
      | none => []
      | some g => s.groupOuts sw g.out fun x => decide (f.typ = 1) && s.tree.reds.any fun r =>
          decide (r.sw = x) && decide (r.part = f.part) && decide (r.group = f.dest) && decide (r.idx = f.idx)
  else [s.nextHop sw f.dest]
/-- A flit a node has received is handed to its endpoint or its cores, or goes on by its packet's outputs, combined where its group's
entry says so (R174 to R176). -/
def State.goOn (s : State) (sw : Nat) (up : Bool) (outs : List Nat) (f : Flit) : State :=
  if sw ≥ 1098 then (if f.typ ≥ 6 then s.atEndpoint sw f else s)
  else if 1024 ≤ sw ∧ sw < 1088 ∧ f.typ ≥ 6 ∧ f.dest = sw - 1024 then s.atEndpoint sw f
  else if sw < 1024 ∧ !up then
    (if f.typ = 4 ∨ f.typ = 5 then s.atEndpoint sw f else s.atPort sw f)
  else
    let k := if f.typ = 1 ∧ f.grp then ((s.groupAt sw f.part (f.dest % 4096)).map (·.k)).getD 1 else 1
    match if k ≥ 2 then s.reduceAt sw k f else (s, some f) with
    | (s, none) => s
    | (s, some f) => outs.foldl (fun s o => s.sendFlit f sw o) s
/-- A switch receives a flit that was on its way from `f.from_`: its check (R169), then its way on. A body flit follows its head as
this switch received it (R167, R180). -/
def State.arrive (s : State) (sw err : Nat) (f : Flit) : State :=
  let f := f.damaged err
  let s := if f.crcErr = 0 then s else s.treeEvent sw (s.flitCore sw f) 0x1C (sp [(0, 1, f.vc), (1, 1, f.typ), (2, 2, swIdent sw)])
  let up := decide (f.from_ ≥ 10000)
  let f := { f with prev := f.from_, inLane := f.lane, from_ := sw, bad := f.bad || decide (f.crcErr ≠ 0) }
  match if f.idx = 0 then none else s.tree.paths.find? fun p => decide (p.sw = sw) && decide (p.head.pid = f.pid) with
  | some p =>
    let f := { f with typ := p.head.typ, part := p.head.part, len := p.head.len, dest := p.head.dest, grp := p.head.grp, act := p.head.act
                      aux := p.head.aux, sys := p.head.sys }
    let s := if f.tail then s.updTree fun t => { t with paths := t.paths.erase p } else s
    s.goOn sw up p.outs f
  | none =>
    let outs := s.outsOf sw up f
    let s := if f.tail then s else s.updTree fun t => { t with paths := t.paths ++ [⟨sw, f, outs⟩] }
    s.goOn sw up outs f

/-- The next flit of a core's oldest packet on a channel enters the cluster port: the pad is read as it leaves
(R97, R167, R168). A higher channel that has a flit ready goes first (R170). -/
def State.inject (s : State) (u pos vc : Nat) (es : List PadErr) : State × Option Flit :=
  let c := 72 * u + pos
  let k := s.core c
  let ready := fun v => k.sends.any (fun p => decide (p.vc = v)) && s.tree.room u (10000 + c) 0 v
  match if (List.range 4).any (fun v => decide (laneOrder v false < laneOrder vc false) && ready v) || !ready vc then none
      else k.sends.find? fun p => decide (p.vc = vc) with
  | none => (s, none)
  | some p =>
    let addr := (p.addr / 64 * 64 + 64 * p.sent) % 0x100000
    let (s, bs) := s.padRead c 6 addr 64 (s.core c).cycle es p.pc
    let pid := if p.sent = 0 then s.tree.nextPid else p.pid
    let p' := { p with sent := p.sent + 1, pid := pid }
    let f : Flit :=
      { sw := u, from_ := 10000 + c, prev := 10000 + c, inLane := 0, lane := 0, pid := pid, src := c, vc := vc
        typ := if p.red ∧ vc = 1 then 1 else 0, part := (s.partOf c).getD 0, len := p.len, idx := p.sent, tail := decide (p'.sent = p.len)
        dest := p.dest, grp := p.grp, act := p.act, aux := if p.red ∧ vc = 2 then 1 else 0
        shadow := if p.act ∧ addr < 0x20000 ∧ (accessCause (s.cluster u).banks addr 1).isNone then tget k.shadow 0 (addr / 64) else 0
        sys := false, seqno := 0, data := bs, crcErr := 0, bad := false }
    let s := if p.sent = 0 then s.updTree fun t => { t with nextPid := pid + 1 } else s
    (s.updCore c fun k => { k with sends :=
        if p'.sent ≥ p.len then k.sends.erase p else List.map (fun x => if x = p then p' else x) k.sends }, some f)

/-- A TSEND stalled on eight outstanding packets issues (R82, R97). -/
def State.retryTsend (s : State) (c : Nat) : State :=
  match (s.core c).wait with
  | .stall w =>
    if opOf w = 0x32 then
      match s.tsend c w with
      | (s, true) => s.updCore c fun k => ({ k with wait := .none, cycle := s.resumeAt c 0 + 1, beat := true }).advance
      | (_, false) => s
    else s
  | _ => s

/-- Discard a partition's VC1 packets and its type 0 packets of VC2, in every switch and before its cores; under an abort, `all`, its
packets of types 4 to 6 as well (R182). Its VC0 flits and its other packets go on. -/
def State.dropTraffic (s : State) (p : Nat) (all : Bool) : State :=
  let cls := fun (vc typ : Nat) => decide (vc = 1) || (decide (vc = 2) && decide (typ < 4)) || (all && decide (4 ≤ typ) && decide (typ ≤ 6))
  let gone := fun (f : Flit) => decide (f.part = p) && cls f.vc f.typ
  let pids := (s.tree.flits.filter fun f => all && gone f && decide (4 ≤ f.typ)).map (·.pid)
  s.updTree fun t =>
    { t with flits := t.flits.filter fun f => !gone f, deliver := t.deliver.filter fun f => !decide (f.part = p)
             busy := t.busy.filter fun b => !(decide (b.part = p) && cls b.vc b.typ), paths := t.paths.filter fun x => !gone x.head
             reds := t.reds.filter fun r => !decide (r.part = p), asm := t.asm.filter fun x => !pids.contains x.pid
             acks := t.acks.filter fun a => !(all && decide (a.part = p) && !a.sys)
             failed := t.failed.filter fun a => !(all && decide (a.part = p) && !a.sys) }

/-- TREE_FLIT_ARRIVAL: node `sw`, a switch or the edge port, receives a flit of channel `vc`, from a link or from one of its
cluster's cores; `err`: the bits of its lane word that change on the way (R167 to R176). A switch that is not powered receives none
(R165, R181). -/
def execTreeFlitArrival (sw vc : Nat) (src : FlitSource) (err : Nat) (s : State) : Out :=
  if sw < 1098 ∨ sw = 1100 then
    if !s.nodeUp sw then .next s
    else match src with
    | .core pos es =>
      if sw < 1024 ∧ pos < 72 then
        match s.inject sw pos vc es with
        | (s, some f) => .next ((s.retryTsend (72 * sw + pos)).arrive sw err f)
        | (s, none) => .next (s.retryTsend (72 * sw + pos))
      else .next s
    | .link =>
      match s.tree.crossing sw vc with
      | none => .next s
      | some f => .next (((s.updTree fun t => t.crossed f).countFlit f.from_ sw).arrive sw err f)
  else .fault .noSuchUnit

/-- The flit waiting for a core to be written next: the oldest of VC1 where its region has room, else the oldest of VC2. Each
channel keeps its order (R170 to R172). -/
def State.nextDelivery (s : State) (c : Nat) : Option Flit :=
  let head := fun vc => (s.tree.deliver.find? fun f => decide (f.dest = c) && decide (f.vc = vc)).filter fun f =>
    let d := (s.core c).circOf 1 f.aux
    decide (d.fill + 64 ≤ d.size)
  head 1 <|> head 2
/-- A damaged flit has reached a core (R169): of VC1, its step is not committed. Of VC2, type 0, an ingest step that may have used it
for the whorl is not committed either, and in a spin step it is of the re-shard, whose half-slice is moved again (R251; DESIGN
CHOICE, log 221: a packet does not say which of the two it serves). -/
def State.badAtCore (s : State) (f : Flit) : State :=
  let x := s.part f.part
  if f.vc = 2 ∧ !x.ingest then s.updPart f.part fun x => { x with kvResend := satInc x.kvResend, again := x.again + 1 }
  else s.notePartFault f.part 0x1C
/-- TREE_DELIVERY: the next deliverable flit waiting for core `c` is written at its region's HEAD, which advances; a flit without
room waits, and one of VC2 sets VC2BP (R114, R115, R171, R175). A flit for a stopped core is dropped (R182). `err`: the bits of
its DATA, SHADOW and CRC that change on the way to the core's interface (R169). -/
def execTreeDelivery (c err : Nat) (s : State) : Out :=
  if c < 73728 then
    let k := s.core c
    if k.run ≠ .running ∧ k.run ≠ .ended then
      .next (s.updTree fun t => { t with deliver := t.deliver.filter fun f => !decide (f.dest = c) })
    else
      match s.nextDelivery c with
      | none =>
        if s.tree.deliver.any fun f => decide (f.dest = c) && decide (f.vc = 2) then
          .next (s.updCluster (c / 72) fun u => { u with treStat := u.treStat ||| 8 })
        else .next s
      | some f0 =>
        let d := k.circOf 1 f0.aux
        let s := s.updTree fun t => { t with deliver := t.deliver.erase f0 }
        let g := f0.damaged err
        let f := { f0 with data := g.data, shadow := g.shadow, crcErr := g.crcErr }
        let s := if f.crcErr = 0 then s
          else s.coreEventIf false c 0x1C (sp [(0, 1, f0.vc), (1, 1, f0.typ), (2, 2, swIdent (c / 72))])
        let s := if f.bad || decide (f.crcErr ≠ 0) then s.badAtCore f else s
        let addr := d.addr 1 d.head
        let s := s.circWrite c 1 f.aux d.head f.data 6
        let s := if f.act ∧ (accessCause (s.cluster (c / 72)).banks addr 1).isNone then
          s.updCore c fun k => { k with shadow := tset k.shadow 0 (addr / 64) f.shadow } else s
        .next (s.circAdvance c 1 f.aux true 64 0)
  else .fault .noSuchUnit

/-! ### Acknowledgements (R177) -/

/-- TREE_ACK: an acknowledgement at its sender's interface is taken; the packet is done. -/
def execTreeAck (seqno : Nat) (s : State) : Out :=
  if s.tree.ackIn.contains seqno then
    .next (s.updTree fun t => { t with ackIn := t.ackIn.filter (· ≠ seqno), acks := t.acks.filter fun a => !decide (a.seqno = seqno) })
  else .next s

/-- Class 0x1F, raised by the sender of a packet that failed (R177, R183). -/
def State.sendFailed (s : State) (a : AckWait) : State :=
  let spec := sp [(0, 1, a.typ), (2, 2, a.dest), (4, 4, a.seqno)]
  if a.src ≥ 30000 then
    let u := a.src - 30000
    (s.updCluster u fun x => x.note 0x1F (x.treStat.toNat / 256 % 128)).raise (s.clusterEv u 0x1F spec)
  else if a.src < 20064 then s.raise (s.regionEv (a.src - 20000) 0x1F spec)
  else s.raise (s.edgeEv 0x1F spec)
/-- TREE_RESEND: 20 µs without an ACK: the packet is sent again, up to three times; then class 0x1F, and the unit that asked for the
transfer is told (R177). -/
def execTreeResend (seqno : Nat) (s : State) : Out :=
  match s.tree.acks.find? fun a => decide (a.seqno = seqno) with
  | none => .next s
  | some a =>
    if s.clk.wtime < a.due then .next s
    else if a.sends < 3 then
      .next ((s.updTree fun t => { t with acks := t.acks.map fun x =>
        if x = a then { a with sends := a.sends + 1, due := s.clk.wtime + ackTicks } else x }).putPacket a)
    else .next ((s.updTree fun t => { t with acks := t.acks.erase a, failed := t.failed ++ [a] }).sendFailed a)

/-! ### Barriers (R178) -/

/-- Regions of a partition. -/
def State.partRegions (s : State) (p : Nat) : List Nat :=
  (List.range 64).filter fun r => decide ((s.region r).part = some p)

/-- A switch holds part of a barrier of a partition, or is about to (R180). -/
def State.holdsBar (s : State) (p sw : Nat) : Bool :=
  s.tree.bars.any (fun b => decide (b.sw = sw) && decide (b.part = p)) || s.tree.barMsgs.any fun b => decide (b.sw = sw) && decide (b.part = p)
/-- The apex switch of a partition (R178). -/
def State.apex (s : State) (p : Nat) : Nat :=
  let rs := s.partRegions p
  let r0 := rs.headD 0
  if rs.all fun r => decide (skein r = skein r0) then 1024 + r0
  else if rs.all fun r => decide (quadrant r = quadrant r0) then s.trunkOf (quadrant r0) 0 (s.holdsBar p)
  else s.rootOf 0 (s.holdsBar p)

/-- Where a switch sends its combined arrival. -/
def State.barParent (s : State) (p sw : Nat) : Nat :=
  let a := s.apex p
  if sw < 1024 then 1024 + sw / 16
  else if sw < 1088 then (if a < 1088 then a else s.trunkOf (quadrant (sw - 1024)) 0 (s.holdsBar p))
  else a

/-- Arrivals a switch combines for a partition: non-vacant cores, clusters, regions or trunks below it. -/
def State.barExpect (s : State) (p sw : Nat) : Nat :=
  let rs := s.partRegions p
  let clusterLive := fun u => ((List.range 64).filter fun i => !(s.core (s.physOf u (i / 8) (i % 8))).vacant).length
  let regionLive := fun r => ((List.range 16).filter fun i => decide (clusterLive (16 * r + i) > 0)).length
  if sw < 1024 then clusterLive sw
  else if sw < 1088 then
    regionLive (sw - 1024) + (if s.apex p = sw then (rs.filter fun r => decide (r ≠ sw - 1024)).length else 0)
  else if sw < 1096 then (rs.filter fun r => decide (quadrant r = (sw - 1088) / 2)).length
  else ((List.range 4).filter fun q => rs.any fun r => decide (quadrant r = q)).length

/-- The apex releases a barrier to every non-vacant core of the partition (R178). -/
def State.barRelease (s : State) (p bar : Nat) (flag : Word) (bad : Bool) : State :=
  let cs := (s.partRegions p).flatMap s.liveCores
  s.updTree fun t => { t with rels := t.rels ++ cs.map fun c => ⟨c, bar, flag, bad⟩ }

/-- Flits of a release on the links above the region switches (R178, R184): from the apex to the trunks, and from each
trunk to its regions. -/
def State.countRelease (s : State) (p : Nat) : State :=
  let a := s.apex p
  let rs := s.partRegions p
  if a < 1088 then s
  else
    let s := if a < 1096 then s
      else ((List.range 4).filter fun q => rs.any fun r => decide (quadrant r = q)).foldl (fun s q => s.countFlit a (s.trunkOf q (a - 1096))) s
    rs.foldl (fun s r => s.countFlit (if a < 1096 then a else s.trunkOf (quadrant r) (a - 1096)) (1024 + r)) s

/-- Longest waits of VC0 flits at the outputs of region switches (R184): of switch `sw`, or, where it is the apex, of the partition's
switches, which pass the release down. -/
def State.vc0Waits (s : State) (p sw : Nat) (waits : List (Nat × Nat)) : State :=
  waits.foldl (fun s (r, w) =>
    if 1024 + r = sw ∨ (sw = s.apex p ∧ (s.region r).part = some p) then s.updNet r fun n => { n with vc0Max := max n.vc0Max (min w 15) } else s) s
/-- BARRIER_ARRIVAL: an arrival reaches a switch and is combined; complete, it rises, or at the apex the release goes down
(R178). `err`: the arrival fails its check, with these bits of SAT, BXO and W changed (R169): the step that goes by it is not
committed. `waits`: tclk cycles that VC0 flits waited at an output of region switches (R184). A switch that is not powered receives
none. -/
def execBarrierArrival (sw : Nat) (err : Option Nat) (waits : List (Nat × Nat)) (s : State) : Out :=
  if sw < 1098 then
    match if s.nodeUp sw then s.tree.barMsgs.find? fun m => decide (m.sw = sw) else none with
    | none => .next s
    | some m =>
      let s := s.vc0Waits m.part sw waits
      let s := match err with
        | some _ => s.treeEvent sw none 0x1C (sp [(0, 1, 0), (1, 1, 2), (2, 2, swIdent sw)])
        | none => s
      let x := err.getD 0
      let same := fun (b : BarSlot) => decide (b.sw = sw) && decide (b.part = m.part) && decide (b.bar = m.bar)
      let b0 := (s.tree.bars.find? same).getD ⟨sw, m.part, m.bar, 0, false, false, 0, false⟩
      let b : BarSlot := { b0 with got := b0.got + 1, sat := b0.sat || (m.sat != x.testBit 0), bxo := b0.bxo || (m.bxo != x.testBit 1)
                                   w := max b0.w (m.w ^^^ x / 4 % 64), bad := b0.bad || m.bad || err.isSome }
      let apex := s.apex m.part
      let up := s.barParent m.part sw
      let s := s.updTree fun t => { t with barMsgs := t.barMsgs.erase m, bars := t.bars.filter fun x => !same x }
      if b.got < s.barExpect m.part sw then .next (s.updTree fun t => { t with bars := t.bars ++ [b] })
      else if sw = apex then .next ((s.barRelease m.part m.bar (flagWord b.sat b.bxo b.w) b.bad).countRelease m.part)
      else
        .next ((s.updTree fun t =>
          { t with barMsgs := t.barMsgs ++ [⟨up, sw, m.part, m.bar, b.sat, b.bxo, b.w, b.bad⟩] }).countFlit sw up)
  else .fault .noSuchUnit

/-! ### Dark switches (R180, R181) -/

/-- A packet has begun to cross into a switch: it goes on there (R180). -/
def Tree.entering (t : Tree) (f : Flit) : Bool := t.busy.any fun b => decide (b.from_ = f.from_) && decide (b.sw = f.sw) && decide (b.pid = f.pid)
/-- Packets that have not begun to cross into switch h take its pair's (R180 step 1). -/
def State.divert (s : State) (h : Nat) : State :=
  let old := 1088 + h
  let new := 1088 + pairOf h
  let move := fun (f : Flit) => if f.sw = old ∧ !s.tree.entering f then { f with sw := new, lane := s.laneOf f.from_ new f } else f
  let swap := fun (p : TreePath) =>
    if p.outs.contains old ∧ !(s.tree.busy.any fun b => decide (b.from_ = p.sw) && decide (b.sw = old) && decide (b.pid = p.head.pid)) then
      { p with outs := (p.outs.map fun o => if o = old then new else o).eraseDups } else p
  s.updTree fun t => { t with flits := t.flits.map move, paths := t.paths.map swap
                              barMsgs := t.barMsgs.map fun m => if m.sw = old ∧ !s.holdsBar m.part old then { m with sw := new } else m }
/-- Take hosted switch h out of service (R180 step 1). -/
def State.switchOut (s : State) (h : Nat) : State := (s.updTree fun t => { t with hosts := tset t.hosts 0 h 1 }).divert h
/-- SWITCH_OUT_OF_SERVICE: the steward orders a trunk or root half out of service; children take their second parents.
It is never ordered for the only one of its pair left (R180, R181). -/
def execSwitchOutOfService (h : Nat) (s : State) : Out :=
  if h < 10 then
    if s.swUp h ∧ s.swUp (pairOf h) then .next (s.switchOut h) else .next s
  else .fault .noSuchUnit

/-- A switch is empty (R180): no packet in it or entering it, no sum and no barrier combined in part. -/
def State.swEmpty (s : State) (sw : Nat) : Bool :=
  (s.tree.flits.all fun f => decide (f.from_ ≠ sw) && decide (f.sw ≠ sw)) && (s.tree.paths.all fun p => decide (p.sw ≠ sw))
    && (s.tree.reds.all fun r => decide (r.sw ≠ sw)) && (s.tree.bars.all fun b => decide (b.sw ≠ sw))
    && s.tree.barMsgs.all fun b => decide (b.sw ≠ sw)
/-- SWITCH_DRAINED: the switch reports empty and is marked dark with class 0x1E (R180). -/
def execSwitchDrained (h : Nat) (s : State) : Out :=
  if h < 10 then
    if tget s.tree.hosts 0 h = 1 ∧ s.swEmpty (1088 + h) = true then
      .next ((s.updTree fun t => { t with hosts := tset t.hosts 0 h 2 }).raise
        (s.edgeEv 0x1E (sp [(0, 1, 0), (2, 2, swIdent (1088 + h))])))
    else .next s
  else .fault .noSuchUnit

/-- SWITCH_RETURN: the host region's VCORE is back and the switch reports ready; first parents return (R180). -/
def execSwitchReturn (h : Nat) (s : State) : Out :=
  if h < 10 then
    if tget s.tree.hosts 0 h = 2 ∧ s.vcoreUp (hostRegions.getD h 0) = true then
      .next ((s.updTree fun t => { t with hosts := tset t.hosts 0 h 0 }).raise
        (s.edgeEv 0x1E (sp [(0, 1, 1), (2, 2, swIdent (1088 + h))])))
    else .next s
  else .fault .noSuchUnit

end Sys2Proof.Machine
end

