-- ==== Sys2Proof/Machine/Lattice.lean ====
section
/-!
DEFINITION. The lattice (R138 to R160): slot frames, router entries, seams and credit words.
-/
namespace Sys2Proof.Machine

/-! ### Router entry fields (R143) -/

/-- Field of a router entry. -/
def ef (e : BitVec 32) (hi lo : Nat) : Nat := e.toNat / 2 ^ lo % 2 ^ (hi - lo + 1)
/-- SLOT. -/
def eSlot (e : BitVec 32) : Nat := ef e 11 0
/-- OUT. -/
def eOut (e : BitVec 32) : Nat := ef e 15 12

/-- Raise class 0x18 or 0x19 of core c with the region's count at the slot (R142, R148, R424). -/
def State.slotEvent (s : State) (c cls k0 k1 slot pc plan : Nat) : State :=
  let n := (s.region (regionOf c)).net.count + slot
  s.coreEvent c cls (sp [(0, 1, k0), (1, 1, k1), (2, 2, slot), (4, 2, pc), (6, 1, plan), (8, 4, n)])

/-- What a router entry finds at a source: a lane word, or nothing for an idle credit slot. -/
inductive SrcRes where
  | word (data : List Byte) (sb : Nat) (void : Bool) (err : Nat)
  | idle
  deriving DecidableEq, Repr

/-- DPAR or SPAR does not match a word with these bits flipped (R139, R140). -/
def parBad (x : Nat) : Bool :=
  (List.range 8).any (fun i => oddBits 64 (x / 2 ^ (64 * i)) != x.testBit (522 + i)) || oddBits 10 (x / 2 ^ 512) != x.testBit 530
/-- A lane word with bits flipped; none where VALID then reads 0 (R139). -/
def LaneWord.flipped (w : LaneWord) (x : Nat) : Option LaneWord :=
  if x.testBit 520 then none
  else some { w with data := flipData w.data x, sb := w.sb ^^^ x / 2 ^ 512 % 256, void := w.void != x.testBit 521, err := w.err ^^^ x }
/-- The input lane crosses a seam. -/
def State.seamLane (s : State) (c lane : Nat) : Bool :=
  match s.neighbor c (lane / 2) with
  | some n => decide (regionOf n ≠ regionOf c)
  | none => false
/-- An input lane of a router at count d (R140, R145, R153): words of earlier counts have left it; the word due now meets its
errors and is checked, once; a step of the seam queue's synchronised pointer by more than one bit is a Gray pointer fault. A
word of an earlier count that no entry stood beside is checked as it leaves. -/
def State.checkLane (s : State) (c d slot : Nat) (es : List LaneErr) (lane : Nat) : State :=
  let key := 8 * c + lane
  let q := tget s.links [] key
  let e := es.find? fun e => decide (e.lane = lane)
  if q.isEmpty && e.isNone || s.linkClosed c (lane / 2) then s
  else
    let left := q.filter fun w => decide (w.due < d) && !w.seen && parBad w.err
    let s := left.foldl (fun s _ => s.slotEvent c 0x19 0 lane slot 0 0) s
    let s := if (e.any LaneErr.gray) && s.seamLane c lane then s.slotEvent c 0x19 1 lane slot 0 0 else s
    let q := q.filter fun w => decide (d ≤ w.due)
    let now := q.filterMap fun w =>
      if w.due = d ∧ !w.seen then (w.flipped ((e.map LaneErr.flip).getD 0)).map fun w => { w with seen := true } else some w
    let bad := now.any fun w => decide (w.due = d) && parBad w.err && q.any fun v => decide (v.due = d) && !v.seen
    let s := { s with links := tset s.links [] key now }
    if bad then s.slotEvent c 0x19 0 lane slot 0 0 else s
/-- Every input of a router at count d (R140). -/
def State.checkInputs (s : State) (c d slot : Nat) (es : List LaneErr) : State := (List.range 8).foldl (fun s l => s.checkLane c d slot es l) s

/-- Take an input lane at count d (R145, R148, R149, R154, R158): the word is forwarded as received. `cred`: a credit slot, for
which an input that carries VALID = 0 is no missed slot. -/
def State.takeInput (s : State) (c lane d slot plan : Nat) (cred : Bool) : State × SrcRes :=
  let dir := lane / 2
  let void := SrcRes.word (List.replicate 64 0) 0 true 0
  let up := (s.neighbor c dir).getD c
  if s.linkClosed c dir then
    (if (s.neighbor c dir).isSome then
       s.coreEventIf false c 0x1B (sp [(0, 1, 1), (1, 1, dir), (2, 2, slot)]) else s.slotEvent c 0x18 2 0 slot 0 plan, void)
  else
    match (tget s.links [] (8 * c + lane)).find? fun w => decide (w.due = d) with
    | some w =>
      ({ s with links := tupd s.links [] (8 * c + lane) (·.map fun v => if v.due = d then { v with taken := true } else v) },
        .word w.data w.sb w.void w.err)
    | none => if cred then (s, .idle) else (s.slotEvent up 0x18 2 0 slot 0 plan, void)

/-- Take a source of an entry at slot t (R143, R145): an LSEND's pad read is at the slot before; an LPUT travels only in an
entry with CRED = 1 (R149). The LSENDs of a dead core have stopped (R160). `ps`: pad errors of the read, word by word (R107). -/
def State.takeSrc (s : State) (c src d slot plan : Nat) (act cred : Bool) (dir : Nat) (ps : List PadErr) : State × SrcRes :=
  if src < 8 then s.takeInput c src d slot plan cred
  else if src < 10 then
    let k := s.core c
    match if k.dead then none else k.desc.find? fun x => x.send && decide ((x.slot + 1) % 65536 = slot) && (decide (src = 8) || x.two) with
    | some x =>
      let addr := (x.addr + 64 * (src - 8)) % 0x100000
      let t := k.frameStart + slot - 1
      let (s, bs) := s.padRead c 5 addr 64 t ps x.pc
      let on := (accessCause (s.cluster (c / 72)).banks addr 1).isNone
      (s, .word bs (if act ∧ addr < 0x20000 ∧ on then (tget (k.padAt t).shadow 0 (addr / 64)).toNat else 0) false 0)
    | none => (s.slotEvent c 0x18 0 0 slot k.pc.toNat plan, .word (List.replicate 64 0) 0 true 0)
  else if src < 12 then
    let k := s.core c
    match if cred then k.lputs.find? fun x => decide (x.lane = src - 10) && decide (x.dir = dir) else none with
    | some x =>
      let (s, bs) := s.padRead c 5 x.addr 64 (k.frameStart + slot) ps x.pc
      (s.updCore c fun k => { k with lputs := k.lputs.erase x }, .word bs x.cr false 0)
    | none => (s, .idle)
  else (s, .idle)

/-- The sixteen INT32 words of a flit. -/
def flitWords (bs : List Byte) : List Int := (chunks 4 16 bs).map fun b => (BitVec.ofNat 32 (leNat b)).toInt

/-- In-router addition (R146): data, sideband, and words saturated. -/
def flitAdd (a b : List Byte) (sa sb : Nat) : List Byte × Nat × Nat :=
  let sums := List.zipWith (· + ·) (flitWords a) (flitWords b)
  let sats := (sums.filter fun x => decide (x > satMax) || decide (x < satMin)).length
  let cl := sums.map fun x => if x > satMax then satMax else if x < satMin then satMin else x
  let w := sums.foldl (fun m x => max m (bitLen x.natAbs)) (max (sa % 64) (sb % 64))
  let sat := decide (sats > 0) || sa.testBit 6 || sb.testBit 6
  (cl.flatMap fun x => leBytes 4 (BitVec.ofInt 32 x).toNat, min w 63 + (if sat then 64 else 0), sats)

/-- A void flit has reached a core: VOID, and the step is not committed (R148, R162). -/
def State.voidAt (s : State) (c : Nat) : State :=
  let s := s.updCluster (c / 72) fun u => { u with latStat := u.latStat ||| 4 }
  match s.partOf c with
  | some p => s.notePartFault p 0x18
  | none => s
/-- An addition result reaches a core: SAT joins ESTAT and its cluster's bit, and the larger W stays (R46, R146). -/
def State.sumAt (s : State) (c sb : Nat) : State :=
  let s := s.updCore c fun k => { k with sat := k.sat || sb.testBit 6, wmark := max k.wmark (sb % 64) }
  if sb.testBit 6 then s.updCluster (c / 72) fun u => { u with engStat := u.engStat ||| 1 } else s

/-- Deliver to a local lane (R117, R145 to R148). `sum`: what arrives may be an addition result, for SB is 0 otherwise. A credited
write that arrives void names no region and lands nowhere (DESIGN CHOICE, log 207). -/
def State.deliverLocal (s : State) (c lane slot plan : Nat) (act cred sum : Bool) (bs : List Byte) (sb : Nat)
    (void : Bool) : State :=
  if cred then
    if void then s.voidAt c
    else
      let r := sb % 16
      let s := s.circWrite c 1 r ((s.core c).circOf 1 r).head bs 5
      s.circAdvance c 1 r true 64 0
  else
    let k := s.core c
    match k.desc.find? fun x => !x.send && decide (x.slot = slot) && (decide (lane = 0) || x.two)
        && !(x.done.testBit lane) with
    | none => s.slotEvent c 0x18 1 0 slot k.pc.toNat plan
    | some x =>
      let addr := (x.addr + 64 * lane) % 0x100000
      let full := if x.two then decide (x.done ||| 2 ^ lane = 3) else true
      let x' := { x with done := x.done ||| 2 ^ lane, free := if full then k.frameStart + slot + 2 else 0 }
      let s := s.setCore c { k with desc := k.desc.map fun y => if y = x then x' else y }
      let s := s.storeAt c 5 (linear addr 64) bs (k.frameStart + slot + 2) x.pc
      let s := if act ∧ addr < 0x20000 ∧ (accessCause (s.cluster (c / 72)).banks addr 1).isNone then
          s.updCore c fun k =>
            { k.watch [] [addr / 64] (k.frameStart + slot + 2) x.pc 5 with
              shadow := tset k.shadow 0 (addr / 64) (BitVec.ofNat 8 sb) } else s
      let s := if sum then s.sumAt c sb else s
      if void then s.voidAt c else s

/-- The seam queue of an output: its key in `State.links`, none for an output that crosses no open seam. -/
def State.seamKey (s : State) (c out : Nat) : Option Nat :=
  if out < 8 then
    match s.neighbor c (out / 2) with
    | some n => if regionOf n ≠ regionOf c ∧ !(s.linkClosed c (out / 2)) then some (8 * n + 2 * ((out / 2 + 2) % 4) + out % 2) else none
    | none => none
  else none
/-- Words a queue holds: those no entry has taken (R153). -/
def queued (q : List LaneWord) : Nat := (q.filter fun w => !w.taken).length

/-- Drive a link output (R138, R145, R153, R154, R158). -/
def State.driveLink (s : State) (c out d slot : Nat) (bs : List Byte) (sb : Nat) (void : Bool) (err : Nat) : State :=
  let dir := out / 2
  match s.neighbor c dir with
  | none => s
  | some n =>
    if s.linkClosed c dir then s.coreEventIf false c 0x1B (sp [(0, 1, 0), (1, 1, dir), (2, 2, slot)])
    else
      let r := regionOf c
      let seam := decide (regionOf n ≠ r)
      let due := d + (if seam then (s.region r).net.slack else if dir % 2 = 0 then 2 else 3)
      let key := 8 * n + 2 * ((dir + 2) % 4) + out % 2
      let q := tget s.links [] key ++ [⟨bs, sb, void, err, false, false, due, c⟩]
      let s := { s with links := tset s.links [] key q }
      let s := s.updCluster (c / 72) fun u => { u with latFlits := u.latFlits + 1 }
      if seam then s.updNet r fun x => { x with maxOcc := tset x.maxOcc 0 dir (max (tget x.maxOcc 0 dir) (queued q)) }
      else s

/-- Logical cores of a region that lie on its edge. -/
def State.edgeCores (s : State) (r : Nat) : List Nat :=
  let x := 32 * (r % 8)
  let y := 32 * (r / 8)
  ((List.range 32).flatMap fun i => [s.physAt (x + i) y, s.physAt (x + i) (y + 31), s.physAt x (y + i), s.physAt (x + 31) (y + i)]).eraseDups
/-- Entries of region r's plan in force that stand at slots lo to hi of the frame: core and entry. -/
def State.entriesAt (s : State) (r lo hi : Nat) : List (Nat × BitVec 32) :=
  let n := (s.region r).net
  (s.edgeCores r).flatMap fun c =>
    ((s.core c).router.filter fun e => decide (ef e 29 27 = n.plan) && decide (lo ≤ eSlot e) && decide (eSlot e ≤ hi)
      && decide (eSlot e < s.frameLen r)).map fun e => (c, e)
/-- Seams whose receive condition holds region r before count d (R155): a flit that an entry takes at d over an open seam is not
visible, and the sending region has still to execute the count it is driven at. -/
def State.recvHold (s : State) (r d : Nat) : Nat :=
  let n := (s.region r).net
  (s.entriesAt r (d - n.count) (d - n.count)).foldl (fun m (c, e) =>
    [ef e 19 16, ef e 23 20].foldl (fun m lane =>
      if lane < 8 ∧ s.seamLane c lane ∧ !(s.linkClosed c (lane / 2))
          ∧ !(tget s.links [] (8 * c + lane)).any (fun w => decide (w.due = d)) then
        let n' := (s.region (((s.neighbor c (lane / 2)).map regionOf).getD r)).net
        if n'.inFrame ∧ n'.exec + n.slack ≤ d then m ||| 2 ^ (lane / 2) else m
      else m) m) 0
/-- Seams whose send condition holds region r (R155): the free entries seen are fewer than the flits the region is to drive into
the queue at counts e to d. -/
def State.sendHold (s : State) (r e d : Nat) : Nat :=
  let n := (s.region r).net
  let outs := (s.entriesAt r (e - n.count) (d - n.count)).filterMap fun (c, x) => (s.seamKey c (eOut x)).map fun k => (k, eOut x / 2)
  outs.foldl (fun m (k, dir) =>
    if 128 < queued (tget s.links [] k) + (outs.filter fun y => decide (y.1 = k)).length then m ||| 2 ^ dir else m) 0
/-- Region r cannot execute count d (R155): the seams whose conditions hold now, and a hold that was found 4 counts ahead. -/
def State.seamHold (s : State) (r d : Nat) : Nat :=
  let n := (s.region r).net
  (s.recvHold r d ||| s.sendHold r d d) ||| (match n.holdNext with
    | some (h, m) => if h ≤ d then m else 0
    | none => 0)
/-- As the region first executes count d, it looks 4 counts ahead (R155). -/
def State.lookAhead (s : State) (r d : Nat) : State :=
  let m := s.recvHold r (d + 4) ||| s.sendHold r d (d + 4)
  s.updNet r fun x => { x with holdNext := match x.holdNext with
    | some h => some h
    | none => if m = 0 then none else some (d + 4, m) }

/-- Hold a region before count d (R155). -/
def State.holdRegion (s : State) (r d mask : Nat) : State :=
  s.updNet r fun x => { x with held := some mask, heldAt := d, holdNext := none }

/-- Core c's entry i has executed at count d. -/
def RNet.ran (n : RNet) (c i d : Nat) : RNet :=
  if n.exec < d then { n with exec := d, fired := [4096 * c + i] } else { n with fired := n.fired ++ [4096 * c + i] }

/-- An operand of an addition: a void one adds 0 and keeps its W and SAT, and an LSEND has W = 0 and SAT = 0 (R146, R148). -/
def addIn (src : Nat) (bs : List Byte) (sb : Nat) (void : Bool) : List Byte × Nat :=
  (if void then List.replicate 64 0 else bs, if src < 8 then sb else 0)

/-- One router entry at its slot, once (R143 to R149); `es` are the errors the router's inputs meet (R140, R153) and `ps` those of
its pad reads (R107). A seam that holds the region before this count stops it here (R155). An entry with ADD = 1 and ACT = 1
gives SB two meanings: both act (DESIGN CHOICE, log 208). -/
def State.routerSlot (s : State) (c i : Nat) (es : List LaneErr) (ps : List PadErr) : State :=
  let r := regionOf c
  let n := (s.region r).net
  match (s.core c).router[i]? with
  | none => s
  | some e =>
    let slot := eSlot e
    let out := eOut e
    let d := n.count + slot
    if !n.inFrame || n.held.isSome || decide (ef e 29 27 ≠ n.plan) || decide (s.frameLen r ≤ slot) || decide (d < n.exec)
      || (decide (d = n.exec) && n.fired.contains (4096 * c + i)) || decide (out ≥ 10) then s
    else
      let m := if n.exec = d ∧ !n.fired.isEmpty then 0 else s.seamHold r d
      if m ≠ 0 then s.holdRegion r d m
      else
        let s := if n.exec = d ∧ !n.fired.isEmpty then s else s.lookAhead r d
        let s := s.checkInputs c d slot es
        let add := e.getLsbD 24
        let act := e.getLsbD 25
        let cred := e.getLsbD 26
        let srca := ef e 19 16
        let srcb := ef e 23 20
        match s.takeSrc c srca d slot n.plan act cred (out / 2) ps with
        | (s1, .idle) => s1.updNet r fun x => x.ran c i d
        | (s1, .word a sa va ea) =>
          let fin := fun (s : State) (bs : List Byte) (sb : Nat) (void : Bool) (err : Nat) =>
            let s := if out < 8 then s.driveLink c out d slot bs sb void err
                     else s.deliverLocal c (out - 8) slot n.plan act cred (add || !act) bs sb void
            s.updNet r fun x => x.ran c i d
          if add then
            match s1.takeSrc c srcb d slot n.plan act cred (out / 2) ps with
            | (s2, .idle) => fin s2 a (sa % 128) true 0
            | (s2, .word b sb vb _) =>
              let (a, sa) := addIn srca a sa va
              let (b, sb) := addIn srcb b sb vb
              let (bs, side, sats) := flitAdd a b sa sb
              let s2 := if sats > 0 then s2.updCluster (c / 72) fun u =>
                  { u with latSat := satAdd u.latSat sats, latStat := u.latStat ||| 8 } else s2
              fin s2 bs side (va || vb) 0
          else fin s1 a (if act ∨ cred ∨ srca < 8 then sa else 0) va ea

/-- ROUTER_SLOT: entry `i` of core `c` at its slot; LSEND and LRECV stalled on descriptors may then issue (R98). -/
def execRouterSlot (c i : Nat) (es : List LaneErr) (s : State) (ps : List PadErr := []) : Out :=
  if c < 73728 then .next (((s.routerSlot c i es ps).pruneDesc c).retryDesc c) else .fault .noSuchUnit

/-- The conditions that hold a region have cleared (R155). -/
def State.holdClear (s : State) (r : Nat) : Bool :=
  let d := (s.region r).net.heldAt
  decide (s.recvHold r d = 0) && decide (s.sendHold r d d = 0)

/-- SEAM_HOLD_END: the region resumes. `cycles`: the rclk cycles it was held, counted in RGN_LAT_HOLD; `stalls`: by direction
N, E, S, W, those in which the seam's own condition held, counted in its stall counter (R155, R156). -/
def execSeamHoldEnd (r cycles : Nat) (stalls : List Nat) (s : State) : Out :=
  if r < 64 then
    match (s.region r).net.held with
    | none => .next s
    | some _ =>
      if s.holdClear r then
        .next (s.updNet r fun x =>
          { x with held := none, hold := satAdd x.hold cycles
                   stalls := (List.range 4).foldl (fun t dir =>
                     tupd t 0 dir (satAdd · (min (stalls.getD dir 0) cycles))) x.stalls })
      else .next s
  else .fault .noSuchUnit

/-- A core's link in a direction crosses a seam. -/
def State.seamDir (s : State) (c dir : Nat) : Bool := s.seamLane c (2 * dir)
/-- An LCRD stalled on a full credit queue issues (R82, R153). -/
def State.retryLcrd (s : State) (c : Nat) : State :=
  match (s.core c).wait with
  | .stall w =>
    if opOf w = 0x37 then
      match s.lcrd c w with
      | (s, true) => s.updCore c fun k => ({ k with wait := .none, cycle := s.resumeAt c 0 + 1, beat := true }).advance
      | (_, false) => s
    else s
  | _ => s
/-- CREDIT_WORD_ARRIVAL: the writer's counter rises by the credits returned, clamped at its initial value with class
0x0F (R117, R118, R149). `gray`: over a seam, a synchronised pointer of the credit queue steps by more than one bit (R153).
The queue entry is free, and a return that waited for it goes on. -/
def execCreditWordArrival (c dir : Nat) (s : State) (gray : Bool := false) : Out :=
  if c < 73728 ∧ dir < 4 then
    let k := s.core c
    match tget k.creditIn [] dir with
    | [] => .next s
    | (cr, n) :: rest =>
      let key := 16 * dir + cr
      let init := tget k.creditInit 0 key
      let v := tget k.credit 0 key + n
      let s := s.setCore c { k with creditIn := tset k.creditIn [] dir rest, credit := tset k.credit 0 key (min v init) }
      let s := if v > init then
          (s.coreEvent c 0x0F (sp [(0, 1, 1), (1, 1, cr), (2, 1, 2), (8, 4, 64 * n), (12, 4, 64 * (v - n))])).hazard
            c 3 5 0 0 (65536 * (cr + 16 * dir))
        else s
      let net := (s.region (regionOf c)).net
      let s := if gray && s.seamDir c dir then s.slotEvent c 0x19 1 (2 * dir) (net.exec - net.count) 0 0 else s
      .next (match s.neighbor c dir with
        | some n' => s.retryLcrd n'
        | none => s)
  else .fault .noSuchUnit

/-! ### Slot frames (R141, R142, R201, R202) -/

/-- Times an item runs its plan (R141). -/
def itemRepeats (pt : Part) (it : FrameItem) : Nat :=
  let v := if it.sel = 1 then pt.batch else if it.sel = 2 then pt.kvPages else 0
  it.base + (v * it.mul + 65535) / 65536

/-- The frame sequence of the run in progress. -/
def Part.seq (pt : Part) : List FrameItem := if pt.ingest then pt.ingestSeq else pt.spinSeq

/-- Next frame after position (item, repeats begun): skips items with no repeats. -/
def nextFrame (pt : Part) : Nat → Nat → Nat → Option (Nat × Nat)
  | 0, _, _ => none
  | fuel + 1, pos, rep =>
    match pt.seq[pos]? with
    | none => none
    | some it => if rep < itemRepeats pt it then some (pos, rep + 1) else nextFrame pt fuel (pos + 1) 0

/-- A core that has not issued its WAITF at a boundary (R202): running, and neither at WAITF nor at END. -/
def Core.late (k : Core) : Bool :=
  decide (k.run = .running) && !decide (k.wait = .waitf) && !decide (k.wait = .endRun)

/-- Opcode of the instruction a late core waits in (R424). -/
def Wait.opcode : Wait → Nat
  | .endRun => 0x01
  | .eclr => 0x14
  | .ewait => 0x15
  | .barw _ _ => 0x39
  | .waitc _ => 0x3A
  | .waitf => 0x3B
  | .fence _ => 0x3C
  | .twait _ _ => 0x33
  | .stall w => opOf w
  | .none => 0

/-- Stop a late core as in R100 with class 0x18 kind 3 (R202). -/
def State.lateCore (s : State) (c slot plan : Nat) : State :=
  let k := s.core c
  let s := s.slotEvent c 0x18 3 k.wait.opcode slot k.pc.toNat plan
  let s := s.updNet (regionOf c) fun x => { x with lateCnt := satInc x.lateCnt }
  let s := match s.partOf c with
    | some p => s.updPart p fun q => { q with lateCnt := satInc q.lateCnt }
    | none => s
  s.updCore c fun k => { k with run := .stopped, wait := .none }

/-- A core passes a frame boundary: FCYC restarts, FRAMENO rises, WAITF is released and the frame's descriptors go, but for
an LSEND of its last slot, whose entries stand at slot 0 of the next frame, and an LRECV whose write has still to land (R98, R99, R101, R145). -/
def Core.newFrame (k : Core) (len : Nat) : Core :=
  { k with frameStart := k.frameStart + len, cycle := max k.cycle (k.frameStart + len), frameNo := k.frameNo + 1
           wait := if k.wait = .waitf then .none else k.wait
           desc := (k.desc.filter fun d => if d.send then decide (d.slot + 1 = len) else decide (k.frameStart + len < d.free)).map
             fun d => { d with slot := 65535 } }

/-- With no region of a partition in a frame any more, the switches discard what R182 names. -/
def State.lastStopped (s : State) (p : Nat) : State :=
  if (s.partRegions p).all fun q => !(s.region q).net.inFrame then s.dropTraffic p false else s
/-- A region stops at a frame boundary for a freeze (R102, R160): its cores stop, descriptors and unsent packets go,
and the region of a held partition goes to IDLE (R110, R383). -/
def State.freezeRegion (s : State) (r : Nat) : State :=
  let s := (s.liveCores r).foldl (fun s c => s.updCore c fun k =>
    { k with run := if k.run = .running then .stopped else k.run, wait := .none, desc := [], sends := [], lputs := [] }) s
  let s := s.updNet r fun x => { x with inFrame := false, held := none }
  let s := (((s.region r).part).map s.lastStopped).getD s
  if ((s.region r).part.map fun p => (s.part p).held).getD 0 = 0 then s else s.idleRegion r

/-- FRAME_BOUNDARY: the end of a region's slot frame. At a gated boundary with a core outstanding the region only
inserts `gate` pause cycles (R201); at an ungated one late cores are reported and stopped (R202). A freeze due here
stops the region (R160); the largest lull due is inserted (R382); then the next frame of the sequence begins (R141). -/
def execFrameBoundary (r gate : Nat) (s : State) : Out :=
  if r < 64 then
    let n := (s.region r).net
    if !n.inFrame || n.held.isSome then .next s
    else
      let p := (s.region r).part.getD 0
      let pt := s.part p
      let len := s.frameLen r
      let cores := s.liveCores r
      let gated := match pt.seq[n.seqPos]? with
        | some it => it.gate
        | none => false
      let late := cores.filter fun c => (s.core c).late
      if gated && !late.isEmpty then .next (s.updNet r fun x => { x with gateCnt := satAdd x.gateCnt gate })
      else
        let s := late.foldl (fun s c => s.lateCore c (len - 1) n.plan) s
        let s := cores.foldl (fun s c => s.updCore c (·.newFrame len)) s
        let s := s.updNet r fun x =>
          { x with count := n.count + len, exec := n.count + len, frameNo := x.frameNo + 1, fired := [], holdNext := none }
        if pt.freezeAt ≠ none ∧ pt.freezeAt.getD 0 ≤ n.frameNo + 1 then .next (s.freezeRegion r)
        else
          let s := s.insertLull r
          match nextFrame pt 17 n.seqPos n.seqRep with
          | none => .next (s.updNet r fun x => { x with inFrame := false })
          | some (pos, rep) =>
            .next (s.updNet r fun x =>
              { x with seqPos := pos, seqRep := rep, plan := ((pt.seq[pos]?).map (·.plan)).getD 0 })
  else .fault .noSuchUnit

end Sys2Proof.Machine
end

