-- ==== Sys2Proof/Machine/SpoolOps.lean ====
section
/-!
DEFINITION. The spool's objects (R334 to R342, R346): room, durability, the wear governor and what the loss of an object
does to its user.
-/
namespace Sys2Proof.Machine

/-! ### Requests by index -/

/-- Request table entry. -/
def State.req (s : State) (i : Nat) : Request := tget s.srv.reqs Request.reset i
/-- Change a request table entry. -/
def State.updReq (s : State) (i : Nat) (f : Request → Request) : State :=
  { s with srv := { s.srv with reqs := tset s.srv.reqs Request.reset i (f (s.req i)) } }
/-- Request ID of an entry (R275). -/
def State.reqId (s : State) (i : Nat) : Nat := i + 2 ^ 17 * (s.req i).gen
/-- Tenant. -/
def State.tenant (s : State) (t : Nat) : Tenant := tget s.srv.tenants Tenant.reset t
/-- Change a tenant. -/
def State.updTenant (s : State) (t : Nat) (f : Tenant → Tenant) : State :=
  { s with srv := { s.srv with tenants := tset s.srv.tenants Tenant.reset t (f (s.tenant t)) } }

/-! ### Objects -/

/-- Usable bytes of a card: 24 TiB (R334). -/
def cardBytes : Nat := 24 * 2 ^ 40
/-- Bytes of a MB of the governor (R346). -/
def megabyte : Nat := 1000000
/-- Bytes of objects on card c. -/
def State.cardUsed (s : State) (c : Nat) : Nat :=
  (s.spl.objs.filter fun o => o.cards.testBit c).foldl (fun n o => n + o.size) 0
/-- DEPTH in bytes: 24 hours of budget (R346). -/
def Card.depth (k : Card) : Int := (86400 * k.rate * megabyte : Nat)
/-- Charge n bytes written: the level falls, floors at −DEPTH, and bytes written at the floor count in OVER (R346). -/
def Card.charge (k : Card) (n : Nat) : Card :=
  let k := { k with sent := k.sent + n }
  let l := k.level - (n : Int)
  let d := -k.depth
  if l ≤ d then { k with level := d, over_ := k.over_ + (d - l).toNat, overdrawn := true } else { k with level := l }

/-- A mirrored kind (R336). -/
def ObjKind.mirrored : ObjKind → Bool
  | .kv => false
  | _ => true
/-- Object kind as class 0x37 reports it (R424). -/
def ObjKind.code : ObjKind → Nat
  | .bitstream => 0
  | .model => 1
  | .doff => 1
  | .adapter => 1
  | .history => 2
  | .kv => 3
  | .events => 4
/-- A model, DOFF or adapter image. -/
def ObjKind.image (k : ObjKind) : Bool := decide (k.code = 1)

/-- Class 0x37 (R337, R338): 0 discard, 1 failed write, 2 deleted by the host. -/
def State.capacityEv (s : State) (card what : Nat) (o : SpoolObj) : State :=
  s.raise (s.edgeEv 0x37 (sp [(0, 1, card), (1, 1, what), (2, 1, o.kind.code), (8, 8, o.id)]))

/-- A partition holds a loaded configuration. -/
def Part.loaded (p : Part) : Bool :=
  match p.state with
  | .loading => true
  | .ready => true
  | .applying => true
  | .down => true
  | _ => false
/-- Partition numbers. -/
def partNums : List Nat := List.range 16
/-- An image named by a loaded partition's MODEL_DIGEST or by a pending doff (R337, R338). -/
def State.imageNamed (s : State) (d : Nat) : Bool :=
  partNums.any fun p => let x := s.part p; (x.loaded && decide (x.model = d)) || (decide (x.doff.state ≠ 0) && decide (x.doff.image = d)) ||
    x.doffWait.any fun y => decide (y.1 = d)

/-- Object by kind class and digest. -/
def State.findObj (s : State) (f : ObjKind → Bool) (d : Nat) : Option SpoolObj :=
  s.spl.objs.find? fun o => f o.kind && decide (o.digest = d) && decide (o.cards ≠ 0) && decide (o.stored ≠ 0)
/-- An image on the spool is read (R337). -/
def State.imageRead (s : State) (d : Nat) : State :=
  { s with spl := { s.spl with objs := s.spl.objs.map fun o =>
      if o.kind.image && decide (o.digest = d) then { o with lastRead := s.clk.wtime } else o } }
/-- A durable image of a measurement is stored. -/
def State.imageStored (s : State) (d : Nat) : Bool := (s.findObj ObjKind.image d).isSome

/-- An image is lost: no partition that names it can restore from it (R261, R342). -/
def State.unsourced (s : State) (d : Nat) : State :=
  partNums.foldl (fun s p =>
    if (s.part p).model = d ∨ ((s.part p).ptrs.any fun e => decide (e.image = d)) then s.updPart p fun x => { x with restore := false } else s) s
/-- An image has been stored: a partition that runs it can restore from it (R261, R274). -/
def State.sourced (s : State) (d : Nat) : State :=
  partNums.foldl (fun s p =>
    if (s.part p).model = d ∧ (s.part p).ptrs ≠ [] then s.updPart p fun x => { x with restore := true } else s) s
/-- What the loss of the last copy of an object does to its user (R342): a KV record's request is KV expired, a
history's request history lost, an image clears RESTORE. -/
def State.objGone (s : State) (o : SpoolObj) : State :=
  match o.kind with
  | .kv => s.updReq o.digest fun r => if r.used && decide (r.kvCard.isSome) then
      { r with kvExpired := decide (r.state = .spooled), kvCard := none, spooling := none } else r
  | .history => s.updReq o.digest fun r => if r.used then { r with histLost := true } else r
  | .bitstream => s
  | .events => s
  | .model => s.unsourced o.digest
  | .doff => s.unsourced o.digest
  | .adapter => s.unsourced o.digest

/-- Take away card c's copy of an object; the last copy takes the object with it, but for the name of a lost bit-stream,
which still makes a load fail (R342). -/
def State.dropCopy (s : State) (id c : Nat) : State :=
  match s.spl.objs.find? fun o => decide (o.id = id) with
  | none => s
  | some o =>
    let m := o.cards &&& (2 ^ 32 - 1 - 2 ^ c)
    if m = 0 ∧ o.kind = .bitstream then
      { s with spl := { s.spl with objs := s.spl.objs.map fun x => if x.id = id then { x with cards := 0, data := [], size := 0 } else x } }
    else if m = 0 then
      (State.objGone { s with spl := { s.spl with objs := s.spl.objs.filter fun x => decide (x.id ≠ id) } } o)
    else { s with spl := { s.spl with objs := s.spl.objs.map fun x => if x.id = id then { x with cards := m } else x } }
/-- A mirrored object written to one card gets its second copy as soon as the other has room (R337). -/
def State.mirror (s : State) : State :=
  s.spl.objs.foldl (fun s o =>
    [0, 1].foldl (fun s c =>
      if o.kind.mirrored && decide (o.cards ≠ 0) && !o.cards.testBit c && decide ((s.card c).state = 2) && (s.card c).writes
          && decide (s.cardUsed c + o.size ≤ cardBytes) then
        { s.updCard c fun k => k.charge o.size with
          spl := { (s.updCard c fun k => k.charge o.size).spl with
            objs := s.spl.objs.map fun x => if x.id = o.id then { x with cards := x.cards ||| 2 ^ c } else x } }
      else s) s) s

/-- Take an object away whole, without consequences for a request (the entry that owned it is gone or has it back); a
card that lacked room for a second copy may have it now (R337). -/
def State.dropObj (s : State) (p : SpoolObj → Bool) : State :=
  State.mirror { s with spl := { s.spl with objs := s.spl.objs.filter fun o => !p o } }

/-- The object a card discards next for room (R337): the KV record nearest to the end of its KV_TTL, then the image no
partition and no doff names that was read longest ago. -/
def State.victim (s : State) (c : Nat) : Option SpoolObj :=
  let least := fun (f : SpoolObj → Nat) (l : List SpoolObj) =>
    l.foldl (fun (a : Option SpoolObj) o => match a with
      | none => some o
      | some b => if f o < f b then some o else some b) none
  let on := s.spl.objs.filter fun o => o.cards.testBit c
  match least (·.expires) (on.filter fun o => decide (o.kind = .kv) && decide (o.stored ≠ 0)) with
  | some o => some o
  | none => least (·.lastRead) (on.filter fun o => o.kind.image && !s.imageNamed o.digest)

/-- Make room for n bytes on card c, discarding under R337. -/
def State.makeRoom (s : State) (c n : Nat) : Nat → State × Bool
  | 0 => (s, decide (s.cardUsed c + n ≤ cardBytes))
  | fuel + 1 =>
    if s.cardUsed c + n ≤ cardBytes then (s, true)
    else match s.victim c with
      | none => (s, false)
      | some o => State.makeRoom ((s.dropCopy o.id c).capacityEv c 0 o) c n fuel

/-- Room on a card that takes writes. -/
def State.roomOn (s : State) (c n : Nat) : State × Bool :=
  if (s.card c).writes then s.makeRoom c n s.spl.objs.length else (s, false)

/-- Write an object of a never-refused kind: mirrored on every card that takes writes and has room (R336, R337). The
answer says whether it is durable; a failed copy raises class 0x37. -/
def State.spoolPut (s : State) (o : SpoolObj) : State × Bool :=
  let o := { o with id := s.spl.nextId }
  let (s, m) := [0, 1].foldl (fun (a : State × Nat) c =>
    let (s, m) := a
    if (s.card c).writes then
      let (s, ok) := s.roomOn c o.size
      if ok then (s.updCard c fun k => k.charge o.size, m + 2 ^ c) else (s.capacityEv c 1 o, m)
    else (s, m)) (s, 0)
  if m = 0 then (s, false)
  else
    let o := { o with cards := m, stored := max 1 s.clk.wtime, lastRead := s.clk.wtime }
    ({ s with spl := { s.spl with objs := s.spl.objs ++ [o], nextId := s.spl.nextId + 1 } }, true)

/-- Key generation of a tenant (R340). -/
def State.keyGen (s : State) (t : Nat) : Nat := tget s.spl.gens 0 t

/-- A spool object yet to be placed. -/
def newObj (kind : ObjKind) (digest size : Nat) (data : List Byte) (tenant gen : Nat) : SpoolObj :=
  { id := 0, kind := kind, digest := digest, cards := 0, size := size, data := data, tenant := tenant, gen := gen
    stored := 0, lastRead := 0, expires := 0, cur := 0 }

/-! ### Histories (R299, R337) -/

/-- Write a request's history to both cards: 4 B per token, the tokens a copy lacks (R299). With no card able to take
it the request is marked history lost and keeps serving; what is lost is not written again (R337). -/
def State.histWrite (s : State) (i : Nat) : State :=
  let r := s.req i
  let size := 4 * r.hist.length
  if r.histLost then s
  else match s.spl.objs.find? fun o => decide (o.kind = .history) && decide (o.digest = i) with
  | none =>
    let (s, ok) := s.spoolPut (newObj .history i size [] r.par.tenant (s.keyGen r.par.tenant))
    s.updReq i fun r => { r with histLost := !ok }
  | some o =>
    let rekey := decide (o.gen ≠ s.keyGen r.par.tenant)
    let (s, m) := [0, 1].foldl (fun (a : State × Nat) c =>
      let (s, m) := a
      let n := if o.cards.testBit c ∧ rekey = false then size - o.size else size
      if (s.card c).writes then
        let (s, ok) := s.roomOn c n
        if ok then (s.updCard c fun k => k.charge n, m + 2 ^ c) else (s.capacityEv c 1 o, m)
      else (s, m)) (s, 0)
    if m = 0 then
      (s.dropObj fun x => decide (x.id = o.id)).updReq i fun r => { r with histLost := true }
    else
      { s with spl := { s.spl with objs := s.spl.objs.map fun x => if x.id = o.id then
          { x with cards := m, size := size, cur := x.cur + 1, gen := s.keyGen r.par.tenant } else x } }

/-- The request's history is gone with its entry (R336). -/
def State.histDrop (s : State) (i : Nat) : State := s.dropObj fun o => decide (o.kind = .history) && decide (o.digest = i)
/-- The request's KV record, durable or being written, is given up. -/
def State.kvDrop (s : State) (i : Nat) : State := s.dropObj fun o => decide (o.kind = .kv) && decide (o.digest = i)
/-- Some card holds the request's history (R299). -/
def State.histHeld (s : State) (i : Nat) : Bool :=
  !(s.req i).histLost && s.spl.objs.any fun o => decide (o.kind = .history) && decide (o.digest = i) && decide (o.cards ≠ 0)

/-! ### Admission of KV records (R296, R346) -/

/-- Place a KV record of n bytes: on the card with the larger level of those that take writes, if its level covers the
record or the governor is off, charged in full; otherwise class 0x34 and no record (R296, R337, R346). -/
def State.kvAdmit (s : State) (i n : Nat) : State × Option Nat :=
  let ok := [0, 1].filter fun c => (s.card c).writes
  let best := ok.foldl (fun (a : Option Nat) c => match a with
    | none => some c
    | some b => if (s.card b).level < (s.card c).level then some c else some b) none
  match best with
  | none => (s, none)
  | some c =>
    let k := s.card c
    if s.spl.govEn && decide (k.level < (n : Int)) then
      (s.raise (s.edgeEv 0x34 (sp [(0, 1, c), (4, 4, n / megabyte), (8, 4, (k.level / megabyte % 2 ^ 32).toNat),
        (12, 4, s.reqId i)])), none)
    else
      let r := s.req i
      let o := { newObj .kv i n [] r.par.tenant (s.keyGen r.par.tenant) with id := s.spl.nextId }
      let (s, room) := s.roomOn c n
      if room then
        let s := s.updCard c fun k => k.charge n
        ({ s with spl := { s.spl with objs := s.spl.objs ++ [{ o with cards := 2 ^ c }]
                                      nextId := s.spl.nextId + 1 } }, some c)
      else (s.capacityEv c 1 o, none)

/-! ### How far a rebuild has come (R348) -/

/-- Place of an object in the order of a rebuild (R348 step 4). -/
def State.copyRank (s : State) (o : SpoolObj) : Nat :=
  if o.kind = .history then 0
  else if (partNums.any fun p => let x := s.part p; x.loaded && (if o.kind = .bitstream then decide (x.digest = o.digest) else
      o.kind.image && decide (x.model = o.digest))) then 1
  else if o.kind = .events then 2 else 3
/-- Mirrored objects the rebuild copies, in its order: those the other card holds and this one does not. -/
def State.toCopy (s : State) (c : Nat) : List SpoolObj :=
  let l := s.spl.objs.filter fun o => o.kind.mirrored && o.cards.testBit (1 - c) && !o.cards.testBit c
  (List.range 4).flatMap fun r => l.filter fun o => decide (s.copyRank o = r)
/-- Give card c a copy of each object of a list. -/
def State.copyTo (s : State) (c : Nat) (l : List SpoolObj) : State :=
  let copy := fun (o : SpoolObj) => if l.any (fun x => decide (x.id = o.id)) then { o with cards := o.cards ||| 2 ^ c } else o
  { s with spl := { s.spl with objs := s.spl.objs.map copy } }
/-- The first objects of a list that fit into n bytes, and their bytes. -/
def fitInto : List SpoolObj → Nat → List SpoolObj × Nat
  | [], _ => ([], 0)
  | o :: os, n => if o.size ≤ n then ((o :: (fitInto os (n - o.size)).1), o.size + (fitInto os (n - o.size)).2) else ([], 0)
/-- What a rebuild under way has copied by now, at 18 GB/s (R335, R348): those objects have their second copy. -/
def State.rebuildSoFar (s : State) (c : Nat) : State :=
  if (s.card c).state = 3 then
    let (l, n) := fitInto (s.toCopy c) ((s.clk.wtime - (s.card c).since) * 18000000000 / secs 1)
    (s.copyTo c l).updCard c fun k => { k with since := k.since + n * secs 1 / 18000000000, copied := k.copied + n }
  else s

end Sys2Proof.Machine
end

