-- ==== Sys2Proof/Machine/Serve.lean ====
section
/-!
DEFINITION. The request table, its pages and chunks (R234 to R248, R275 to R302): what the meanings of the serving
messages and of the step share.
-/
namespace Sys2Proof.Machine

/-! ### States (R280) -/

/-- Code of a request state. -/
def ReqState.code : ReqState → Nat
  | .queued => 0
  | .ingest => 1
  | .spin => 2
  | .held => 3
  | .paused => 4
  | .spooled => 5
  | .done => 6
  | .failed => 7
  | .cancelled => 8
/-- DONE, FAILED or CANCELLED. -/
def ReqState.isOver (q : ReqState) : Bool := decide (q.code ≥ 6)
/-- In use and not ended. -/
def Request.live (r : Request) : Bool := r.used && !r.state.isOver
/-- INGEST or SPIN. -/
def Request.active (r : Request) : Bool := r.used && (decide (r.state = .ingest) || decide (r.state = .spin))

/-- Status codes of R313. -/
def stOk : Nat := 0
/-- NOT_YET. -/
def stNotYet : Nat := 1
/-- GONE. -/
def stGone : Nat := 2
/-- NO_ROOM. -/
def stNoRoom : Nat := 3
/-- CACHE_FULL. -/
def stCacheFull : Nat := 4
/-- HELD. -/
def stHeld : Nat := 5
/-- BUDGET. -/
def stBudget : Nat := 6
/-- ABORTED. -/
def stAborted : Nat := 7
/-- EXPIRED. -/
def stExpired : Nat := 8
/-- BAD_IMAGE. -/
def stBadImage : Nat := 0x10
/-- BAD_SIGNATURE. -/
def stBadSig : Nat := 0x11
/-- ROLLBACK. -/
def stRollback : Nat := 0x12
/-- INCOMPATIBLE. -/
def stIncompat : Nat := 0x13
/-- PARTITION_DOWN. -/
def stDown : Nat := 0x20
/-- PARTITION_BUSY. -/
def stBusy : Nat := 0x21
/-- DOLDRUMS. -/
def stDoldrums : Nat := 0x30
/-- INTERNAL. -/
def stInternal : Nat := 0x3F
/-- A status code chosen by a free value (R313). -/
def freeStatus (n : Nat) : Nat := [0, 1, 2, 3, 4, 5, 6, 7, 8, 0x10, 0x11, 0x12, 0x13, 0x20, 0x21, 0x30].getD (n % 16) 0x3F

/-- Index of the request an ID names, while its generation matches (R275). -/
def State.findReq (s : State) (id : Nat) : Option Nat :=
  let i := id % 2 ^ 17
  if (s.req i).used ∧ (s.req i).gen = id / 2 ^ 17 then some i else none
/-- Indices of the requests in use, ascending. -/
def State.reqIdxs (s : State) : List Nat := (s.srv.reqs.filter fun x => x.2.used).map (·.1)
/-- Indices of a partition's requests that a test picks. -/
def State.partReqs (s : State) (p : Nat) (f : Request → Bool) : List Nat :=
  (s.srv.reqs.filter fun x => x.2.used && decide (x.2.par.part = p) && f x.2).map (·.1)

/-! ### Chunks (R291 to R293, R325) -/

/-- A chunk record as Wohatrum carries it (R291). -/
def Chunk.bytes (c : Chunk) : List Byte :=
  let pad := fun (l : List Nat) => (List.range 8).map fun i => l.getD i 0
  beBytes 4 c.seq ++ beBytes 4 c.step ++ beBytes 4 c.pos ++ beBytes 1 c.count ++ beBytes 1 c.epoch ++ beBytes 1 c.flags
    ++ beBytes 1 c.status ++ (pad c.tokens).flatMap (beBytes 4) ++ (pad c.logp).flatMap (beBytes 2)
/-- A chunk entry (R325): `word` is 0 in TOKENS and EXPECT in a READ reply. -/
def entryBytes (id word tag : Nat) (c : List Byte) : List Byte := beBytes 4 id ++ beBytes 4 word ++ beBytes 8 tag ++ c

/-- Push a TOKENS message of some entries to a session: segments of at most 108 entries, MORE on all but the last
(R325). The management port carries none, so a session heard there last is pushed none (R3, R310). -/
def State.pushTokens (s : State) (ses part : Nat) (es : List (List Byte)) : State :=
  let n := (es.length + 107) / 108
  if (s.session ses).any fun h => decide (h.iface = 16) then s
  else (List.range n).foldl (fun s i =>
    let seg := (es.drop (108 * i)).take 108
    s.send ses 4 4 false (decide (i + 1 < n)) 0 0 part
      (beBytes 2 seg.length ++ beBytes 6 0 ++ beBytes 8 s.clk.wtime ++ seg.flatten)) s

/-- Push new chunks, one message to each owning session, in ascending table index (R292): (index, chunk). -/
def State.pushChunks (s : State) (part : Nat) (cs : List (Nat × Chunk)) : State :=
  let owners := (cs.map fun x => (s.req x.1).owner).eraseDups.filter (· ≠ 0)
  owners.foldl (fun s o =>
    s.pushTokens o part ((cs.filter fun x => decide ((s.req x.1).owner = o)).map fun x =>
      entryBytes (s.reqId x.1) 0 (s.req x.1).par.tag x.2.bytes)) s

/-- Store a chunk: the last 256 are kept (R293). -/
def Request.addChunk (r : Request) (c : Chunk) : Request :=
  let l := r.chunks ++ [c]
  { r with chunks := l.drop (l.length - 256), nextSeq := r.nextSeq + 1, reingest := false }

/-! ### The end of a request (R281, R291, R300, R302) -/

/-- Let go of frames, state slot, residuals and references. -/
def Request.freeKv (r : Request) : Request :=
  { r with pages := [], target := [], slot := false, resid := [], rho := [], reshard := false, spoolingIn := false
           waitSince := none }

/-- A request ends outside a commit: its final chunk with no token and the ending status, its KV freed, class 0x3E where
R302 asks. The POS of a chunk with no token is a free value. -/
def State.endOne (s : State) (i : Nat) (to_ : ReqState) (status : Nat) : State × Chunk :=
  let r := s.req i
  let (s, pos) := s.draw
  let pt := s.part r.par.part
  let c : Chunk := { seq := r.nextSeq, step := pt.step, pos := pos % 2 ^ 32, count := 0, epoch := pt.stepEpoch
                     flags := 1 + 4 * r.reingest.toNat, status := status, tokens := [], logp := [] }
  let s := s.kvDrop i
  let s := s.updReq i fun r =>
    { (r.freeKv.addChunk c) with state := to_, endedAt := s.clk.wtime, kvCard := none, spooling := none, pausePend := false }
  let abnormal := decide (to_ = .failed) || (decide (to_ = .done) && (decide (status = stCacheFull) || decide (status = stExpired)))
  (if abnormal then
    s.raise (s.reqEv r.par.part (s.reqId i) 0x3E
      (sp [(0, 1, status), (1, 1, r.state.code), (4, 4, r.par.tag % 2 ^ 32)])) else s, c)

/-- A RETIRING adapter slot is FREE once no bound request is left (R264). -/
def State.adaptSettle (s : State) (p : Nat) : State :=
  s.updPart p fun x => { x with adapt := (x.adapt.filter fun (k, a) =>
    !(decide (a.state = 3) && (s.partReqs p fun r => r.live && decide (r.par.adapter = k)).isEmpty)) }

/-- Several requests end by one event; each owning session gets one message (R292). -/
def State.endMany (s : State) (l : List (Nat × ReqState × Nat)) : State :=
  let (s, cs) := l.foldl (fun (a : State × List (Nat × Chunk)) x =>
    let (s, c) := a.1.endOne x.1 x.2.1 x.2.2
    (s, a.2 ++ [(x.1, c)])) (s, [])
  let parts := (cs.map fun x => (s.req x.1).par.part).eraseDups
  let s := s.pushChunks (match parts with
    | [p] => p
    | _ => 0xFF) cs
  parts.foldl State.adaptSettle s

/-- A request ends. -/
def State.endReq (s : State) (i : Nat) (to_ : ReqState) (status : Nat) : State := s.endMany [(i, to_, status)]

/-- Free an entry: its generation rises, 32,767 wrapping to 1; history and KV record go (R275, R336). -/
def State.freeEntry (s : State) (i : Nat) : State :=
  let g := (s.req i).gen
  ((s.histDrop i).kvDrop i).updReq i fun _ => { Request.reset with gen := if g ≥ 32767 then 1 else g + 1 }

/-- PAUSED goes to SPOOLED with its KV expired (R300). -/
def Request.expireKv (r : Request) : Request :=
  { r.freeKv with state := .spooled, kvExpired := true, kvCard := none, spooling := none }

/-- What a partition event does to requests (R300). -/
inductive PartEvent where
  | down | abort | unload | doldrums
  deriving DecidableEq, Repr

/-- Apply R300 to a partition's requests. -/
def State.partEvent (s : State) (p : Nat) (e : PartEvent) : State :=
  let busy := s.partReqs p fun r => decide (r.state.code ≤ 3)
  let paused := s.partReqs p fun r => decide (r.state = .paused)
  let (to_, st) : ReqState × Nat := match e with
    | .down => (.failed, stDown)
    | .abort => (.cancelled, stAborted)
    | .unload => (.cancelled, stAborted)
    | .doldrums => (.failed, stDoldrums)
  let ends := (if e = .unload then (s.partReqs p fun r => decide (r.state.code ≤ 4)) else busy).map fun i => (i, to_, st)
  let s := s.endMany ends
  if e = .down ∨ e = .doldrums then
    paused.foldl (fun s i => (s.kvDrop i).updReq i Request.expireKv) s
  else s

/-- Chunks kept in a partition's working area are lost with it (R300). -/
def State.loseChunks (s : State) (p : Nat) : State :=
  (s.partReqs p fun _ => true).foldl (fun s i => s.updReq i fun r => { r with chunks := [] }) s

/-! ### Holds (R300) -/

/-- Regions of a partition with no run in progress go to IDLE while it is held (R110, R383). -/
def State.settleHold (s : State) (p : Nat) : State :=
  if (s.part p).held ≠ 0 ∧ (s.part p).phase ≠ .running then (s.partRegions p).foldl State.idleRegion s else s
/-- Hold a partition: requests in INGEST and SPIN enter HELD. -/
def State.holdPart (s : State) (p reason : Nat) : State :=
  let s := (s.partReqs p Request.active).foldl (fun s i => s.updReq i fun r => { r with before := r.state, state := .held }) s
  (s.updPart p fun x => { x with held := reason }).settleHold p
/-- A pause that is due takes effect: the request is in SPIN and no step holds it (R295). -/
def Request.pauseDue (r : Request) (now : Nat) : Request :=
  if r.state = .spin ∧ r.pausePend ∧ !r.reshard then { r with state := .paused, pausePend := false, pausedAt := now, idleSince := now } else r
/-- A request is in the step in flight. -/
def State.inStep (s : State) (i : Nat) : Bool :=
  let pt := s.part (s.req i).par.part
  decide (pt.phase ≠ .none) && pt.items.any fun x => decide (x.idx = i)
/-- Release a partition: held requests return to the state before the hold; a step in flight commits before a pause. -/
def State.releasePart (s : State) (p : Nat) : State :=
  let s := (s.partReqs p fun r => decide (r.state = .held)).foldl (fun s i =>
    let r := { s.req i with state := (s.req i).before }
    s.updReq i fun _ => if s.inStep i then r else r.pauseDue s.clk.wtime) s
  (s.partRegions p).foldl State.wakeRegion (s.updPart p fun x => { x with held := 0 })

/-! ### Geometry of the KV cache (R212, R226, R234 to R236) -/

/-- Logical regions of a partition's rectangle, ascending. -/
def Part.rect (p : Part) : List Nat :=
  (List.range p.rows).flatMap fun i => (List.range p.cols).map fun j => 8 * (p.row0 + i) + p.col0 + j
/-- The region that runs a logical region: the standby region of the pairing in force (R212, R387). -/
def Part.host (p : Part) (r : Nat) : Nat :=
  match p.alt with
  | 0 => r
  | n + 1 => match p.pairs[n]? with
    | some (a, b) => if r = a then b else r
    | none => r
/-- Groups of a region: eligible clusters taken KV_HEADS at a time (R234). -/
def State.regionGroups (s : State) (p r : Nat) : List (List Nat) :=
  let h := (s.part p).kvHeads
  let el := ((List.range 16).map fun i => 16 * (s.part p).host r + i).filter fun u => decide ((s.cluster u).vacant = 0)
  if h = 0 then [] else (List.range (el.length / h)).map fun k => (el.drop (k * h)).take h
/-- The ring: groups of each region that holds at least one (R234). -/
def State.ring (s : State) (p : Nat) : List (List (List Nat)) :=
  ((s.part p).rect.map (s.regionGroups p)).filter fun g => !g.isEmpty
/-- NG. -/
def State.groups (s : State) (p : Nat) : List (List Nat) := (s.ring p).flatten
/-- First group number and group count of the region of a sequence block, and its ring position (R235). -/
def State.blockHome (s : State) (p β : Nat) : Nat × Nat × Nat :=
  let ring := s.ring p
  let k := if ring.isEmpty then 0 else β % ring.length
  (((ring.take k).map List.length).foldl (· + ·) 0, (ring.getD k []).length, k)
/-- A_i: the group of page i in the spin layout (R235). -/
def State.pageGroup (s : State) (p i : Nat) : Nat :=
  let (b, g, _) := s.blockHome p (i / 2)
  let n := (s.ring p).length
  if g = 0 ∨ n = 0 then 0 else b + (2 * (i / 2 / n) + i % 2) % g

/-- H: bursts of a half-slice, by the KV format's code (R226). -/
def halfLen (fmt : Nat) : Nat := 2 + 2 * (if fmt = 8 then 32 else if fmt = 9 then 48 else 64)
/-- H of a partition. -/
def Part.halfSlice (p : Part) : Nat := halfLen p.kvFmt
/-- Bytes of a page over all layers and heads. -/
def Part.pageBytes (p : Part) : Nat := 2 * p.kvLayers * p.kvHeads * p.halfSlice * 64
/-- LAYERS of GEOM (R196). -/
def Part.layers (p : Part) : Nat := leAt (p.sect 1) 0x12 2
/-- Bytes of a request's KV record: its resident pages, and its state slot with a table of all its pages (R237, R296). -/
def Part.recordBytes (p : Part) (resident pages : Nat) : Nat :=
  resident * p.pageBytes + 2 * p.kvLayers * p.kvHeads * 256 + 4 * p.layers * Config.queryHeads p.model + 4 * pages

/-! ### Frames (R225, R236, R241, R242, R244) -/

/-- The 32-bit page table entry of a page (R237). -/
def Page.entry (g : Page) : Nat :=
  g.f % 2 ^ 12 + g.g % 2 ^ 10 * 2 ^ 12 + g.state % 8 * 2 ^ 22 + g.pin.toNat * 2 ^ 25 + (g.fill - 1) % 64 * 2 ^ 26
/-- A page is resident. -/
def Page.resident (g : Page) : Bool := decide (g.state = 1) || decide (g.state = 2)
/-- Frames a request holds. -/
def Request.frames (r : Request) : List (Nat × Nat) := ((r.pages.filter Page.resident).map fun g => (g.f, g.g)) ++ r.target
/-- Frames of a partition in use. -/
def State.framesUsed (s : State) (p : Nat) : List (Nat × Nat) :=
  (s.partReqs p fun _ => true).flatMap fun i => (s.req i).frames
/-- Free frames of a group, ascending. -/
def State.freeFrames (s : State) (p g : Nat) : List Nat :=
  let used := (s.framesUsed p).filter fun x => decide (x.2 = g)
  (List.range (s.part p).pages).filter fun f => !used.contains (f, g)
/-- Entries of a cell: resident pages of requests in SPIN in a group by residue, plus the frames in use that were chosen
since the latest launch, `extra` the last of them (R241). -/
def State.cellLoad (s : State) (p g : Nat) (extra : List (Nat × Nat)) (res : Nat) : Nat :=
  let spin := (s.partReqs p fun r => decide (r.state = .spin)).flatMap fun i =>
    ((s.req i).pages.filter fun x => decide (x.state = 1)).map fun x => (x.f, x.g)
  let used := s.framesUsed p
  let chosen := ((s.part p).chosen.filter fun x => used.contains x) ++ extra
  ((spin ++ chosen.filter fun x => !spin.contains x).filter fun x => decide (x.2 = g) && decide (x.1 % 32 = res)).length
/-- The frame R241 chooses in a group. -/
def State.pickFrame (s : State) (p g : Nat) (extra : List (Nat × Nat)) : Option Nat :=
  let free := (s.freeFrames p g).filter fun f => !extra.contains (f, g)
  let res := ((List.range 32).filter fun m => free.any fun f => decide (f % 32 = m))
  let best := res.foldl (fun (a : Option Nat) m => match a with
    | none => some m
    | some b => if s.cellLoad p g extra m < s.cellLoad p g extra b then some m else some b) none
  best.bind fun m => free.find? fun f => decide (f % 32 = m)
/-- The two frames of a sequence block in ingest: (F₀, G₀) and (F₁, G₁), lowest-numbered free frames of the region's
groups with the most free frames (R236, R241). -/
def State.pickIngest (s : State) (p β : Nat) : Option ((Nat × Nat) × (Nat × Nat)) :=
  let (b, g, _) := s.blockHome p β
  let most := fun (l : List Nat) => l.foldl (fun (a : Option Nat) x => match a with
    | none => some x
    | some y => if (s.freeFrames p y).length < (s.freeFrames p x).length then some x else some y) none
  let gs := (List.range g).map (b + ·)
  match most gs with
  | none => none
  | some g0 =>
    match s.freeFrames p g0 with
    | [] => none
    | f0 :: rest =>
      match (most (gs.filter (· ≠ g0))).bind fun g1 => (s.freeFrames p g1).head?.map fun f => (f, g1) with
      | some x => some ((f0, g0), x)
      | none => rest.head?.map fun f => ((f0, g0), (f, g0))

/-- Byte address of the mass counter of a frame in its core's vault (R242): a word of the KV state area, whose place within the area no
section gives. -/
def Part.massAt (x : Part) (f : Nat) : Option Nat :=
  (x.area 6 0).map fun (b, n) => 64 * b + 4 * ((Config.massOffset + f) % (16 * max n 1))
/-- Read the mass counter of a core and frame at its vault service port (R242, R244). -/
def State.massWord (s : State) (p c f : Nat) : State × Word :=
  match (s.part p).massAt f with
  | none => (s, 0)
  | some a =>
    let (s, bs, _) := s.vaultRead c (a / 64) 1
    (s, BitVec.ofNat 32 (leNat ((bs.drop (a % 64)).take 4)))
/-- A non-negative FP32 word as a multiple of its least subnormal, for comparison and exact sums. -/
def fpExact (w : Word) : Nat :=
  let e := w.toNat / 2 ^ 23 % 256
  if e = 0 then 0 else (2 ^ 23 + w.toNat % 2 ^ 23) * 2 ^ (e - 1)
/-- Logical core j of cluster u. -/
def State.clusterCore (s : State) (u j : Nat) : Nat := s.physOf u (j / 8) (j % 8)
/-- A page's score: the sum of its counters of the last layer that holds KV (R242). -/
def State.pageScore (s : State) (p : Nat) (g : Page) : State × Nat :=
  let l := (s.part p).kvLayers - 1
  let us := (s.groups p).getD g.g []
  (us.flatMap fun u => (List.range 2).map fun h => s.clusterCore u ((2 * l + h + 2 * g.f) % 64)).foldl
    (fun (a : State × Nat) c =>
      let (s, w) := a.1.massWord p c g.f
      (s, a.2 + fpExact w)) (s, 0)
/-- The cores of a page's frame that keep a counter for it: every core of its group. -/
def State.groupCores (s : State) (p g : Nat) : List Nat :=
  ((s.groups p).getD g []).flatMap fun u => (List.range 64).map (s.clusterCore u)
/-- A newly allocated or resumed frame's counters start at 0 (R242, R251). -/
def State.clearMass (s : State) (p f g : Nat) : State :=
  match (s.part p).massAt f with
  | none => s
  | some a =>
    (s.groupCores p g).foldl (fun s c =>
      let v := s.vault c
      if (List.range 4).all fun i => decide (tget v.data 0 (a + i) = 0) then s
      else
        let i := a / 64
        s.setVault c (v.write i ((v.burst i).zipIdx.map fun (x, j) => if a ≤ 64 * i + j ∧ 64 * i + j < a + 4 then 0 else x))) s

/-- The request's lowest-scoring unpinned resident page in a group, the counters of each read (R244). -/
def State.evictChoice (s : State) (p i g : Nat) : State × Option Nat :=
  let (s, best) := ((s.req i).pages.zipIdx.filter fun (x, _) => decide (x.state = 1) && !x.pin && decide (x.g = g)).foldl
    (fun (a : State × Option (Nat × Nat)) (x, k) =>
      let (s, n) := a.1.pageScore p x
      match a.2 with
      | none => (s, some (k, n))
      | some b => (s, if n < b.2 then some (k, n) else some b)) (s, none)
  (s, best.map (·.1))

/-- Pinned pages (R243): page 0, pages below the pin count, the two highest-indexed resident pages, and every page while
a re-shard is in progress. -/
def Request.repin (r : Request) : Request :=
  let res := (r.pages.zipIdx.filter fun x => x.1.resident).map (·.2)
  let top := res.drop (res.length - 2)
  { r with pages := r.pages.zipIdx.map fun (x, k) =>
      { x with pin := decide (k = 0) || decide (64 * k < r.par.pin) || top.contains k || r.reshard } }
/-- Fill of each page from the committed positions (R237). -/
def Request.refill (r : Request) : Request :=
  { r with pages := r.pages.zipIdx.map fun (x, k) => { x with fill := min 64 (r.committed - 64 * k) } }

/-! ### Lost pages and re-ingest (R248, R299) -/

/-- Begin a re-ingest of the whole history: KV freed, positions restart at 0, the next chunk carries REINGEST. -/
def Request.reIngest (r : Request) (to_ : ReqState) : Request :=
  { r.freeKv with state := if r.state = .held then .held else to_, before := to_, committed := 0, reingest := true
                  kvCard := none, kvExpired := false }

/-- The history a re-ingest reads is there: a card holds it, or no write of it was due yet, so that the engine still has what the host
sent (R299; DEDUCED, log 232). -/
def State.histKnown (s : State) (i : Nat) : Bool :=
  s.histHeld i ||
    (!(s.req i).histLost && !s.spl.objs.any fun o => decide (o.kind = .history) && decide (o.digest = i))
/-- A page of a request is lost (R248): STATE 5 and class 0x3C, the step in flight goes on without the request, the frames and slot freed, and the request re-ingested from its
history; without a history it ends FAILED, INTERNAL (R299). A PAUSED request goes to SPOOLED, KV expired. -/
def State.pageLost (s : State) (i page layer head : Nat) : State :=
  let r := s.req i
  let p := r.par.part
  let s := s.updPart p fun x => { x with kvLost := satInc x.kvLost }
  let s := s.raise (s.reqEv p (s.reqId i) 0x3C (sp [(0, 1, layer), (1, 1, head), (4, 4, page)]))
  let s := (s.updReq i fun r => { r with pages := r.pages.modify page fun g => { g with state := 5 } }).updPart p fun x =>
    { x with items := x.items.filter fun it => decide (it.idx ≠ i) }
  if r.state = .paused then (s.kvDrop i).updReq i Request.expireKv
  else if s.histKnown i then s.updReq i fun r => r.reIngest .ingest
  else s.endReq i .failed stInternal

/-! ### Abandonment, launch and relaunch of a run (R79, R100, R102, R116, R160, R182) -/

/-- A step that is not committed stops: cores stop, and the tree discards what R182 names (R100, R102, R182). -/
def State.stopRun (s : State) (p : Nat) (all : Bool := false) : State :=
  let s := (s.partRegions p).foldl (fun s r =>
    let s := (s.liveCores r).foldl (fun s c => s.updCore c fun k =>
      { k with run := match k.run with
                 | .running => .stopped
                 | x => x
               wait := .none, desc := [], sends := [], lputs := [] }) s
    s.updNet r fun n => { n with inFrame := false, held := none }) s
  s.dropTraffic p all

/-- A core's regions are emptied and its credits reset; queued operations have completed or gone (R102, R116). -/
def Core.emptied (k : Core) : Core :=
  { k with circ := (k.circ.filterMap fun (i, c) =>
             let c' := { c with tail := c.head }
             if c' = ⟨0, 0, 0, 0⟩ then none else some (i, c'))
           credit := k.creditInit, released := [], creditIn := [], vq := [], eng := [], desc := [], lputs := [], sends := [] }
/-- A queued raw transfer moves its granules; a stream leaves nothing once its region is emptied (R102, R116). -/
def State.vaultFinish (s : State) (c : Nat) (o : VaultOp) : State := s.vaultMove c 0 o [] []
/-- What a stopped core has issued to its engine completes, and of its vault operations all, or under an abort the one in
progress (`all` false): those queued behind it are discarded (R34, R102, R116, R135). -/
def State.finishCore (s : State) (c : Nat) (all : Bool) : State :=
  let k := s.core c
  if k.eng.isEmpty && k.vq.isEmpty then s
  else
    let n := k.eng.foldl (fun a o => a + (o.v - o.written)) 0
    (if all then k.vq else k.vq.take 1).foldl (fun s o => s.vaultFinish c o) ((List.range n).foldl (fun s _ => s.engWrite c) s)
/-- Pads, seam queues and credit queues of a region are emptied (R116, R160). -/
def State.emptyRegion (s : State) (r : Nat) (all : Bool := true) : State :=
  let cs := s.regionCores r
  let s := cs.foldl (fun s c => (s.finishCore c all).updCore c Core.emptied) s
  { s with links := s.links.filter fun (k, _) => !cs.contains (k / 8) }
/-- Empty every region of a partition. -/
def State.emptyPart (s : State) (p : Nat) (all : Bool := true) : State := (s.partRegions p).foldl (fun s r => s.emptyRegion r all) s

/-- The registers a core sets at a launch (R79). -/
def Core.launch (k : Core) (ingest : Bool) : Core :=
  { k.clearFlags with
    run := .running, wait := .none, pc := if ingest then k.entryIngest else k.entrySpin, loops := [], s := [], a := [], v := []
    p := [], cycle := 0, frameStart := 0, frameNo := 0, score := [], moveFree := 0, padWrites := [], engFree := 0, engLast := 0, desc := [], lastFlag := 0
    beat := false, beatAt := 0 }

/-- VC0 flits of a stopped run have reached their cores, which dropped them, before the next launch; barriers combined in part are
given up (R182; DESIGN CHOICE, log 222). -/
def State.dropBarriers (s : State) (p : Nat) : State :=
  s.updTree fun t =>
    { t with bars := t.bars.filter fun b => !decide (b.part = p), barMsgs := t.barMsgs.filter fun b => !decide (b.part = p)
             rels := t.rels.filter fun r => !decide (s.partOf r.core = some p) }
/-- Start a run of the step in flight: every non-vacant core at its entry, every region at the first frame of the
sequence (R79, R141, R142). A declared-dead core does not run. -/
def State.startRun (s : State) (p : Nat) : State :=
  let pt := s.part p
  let first := nextFrame pt 17 0 0
  let s := s.dropBarriers p
  let s := (s.partRegions p).foldl (fun s r =>
    let s := (s.liveCores r).foldl (fun s c => s.updCore c fun k => if k.dead then k else k.launch pt.ingest) s
    let s := (List.range 16).foldl (fun s i => s.updCluster (16 * r + i) fun u => { u with spans := [] }) s
    let cs := s.regionCores r
    let s := { s with links := s.links.filter fun x => !cs.contains (x.1 / 8) }
    s.updNet r fun n =>
      { n with count := 0, exec := 0, frameNo := 0, fired := [], held := none, holdNext := none, inFrame := first.isSome
               seqPos := (first.map (·.1)).getD 0, seqRep := (first.map (·.2)).getD 0
               plan := ((first.bind fun x => pt.seq[x.1]?).map (·.plan)).getD 0 }) s
  s.updPart p fun x => { x with phase := .running, faults := [], freezeAt := none, ranAt := s.clk.wtime, lullNeed := 0, exps := x.exps.map ExpEntry.launch }

/-- The partition's lists are on their way: a packet of them has no ACK yet, or has failed (R177, R238). -/
def State.listsOut (s : State) (p : Nat) : Bool := (s.tree.acks ++ s.tree.failed).any fun a => decide (a.part = p) && decide (a.typ = 4) && !a.sys
/-- Start the run of the step in flight, or let it wait for its lists (R238, R265). -/
def State.startOrWait (s : State) (p : Nat) : State :=
  if s.listsOut p then s.updPart p fun x => { x with phase := .lists } else s.startRun p
/-- Stop, empty and start again the run of the step in flight (R116, R160). -/
def State.rerun (s : State) (p : Nat) : State := ((s.stopRun p).emptyPart p).startOrWait p

/-- The cores of a partition that run its step: non-vacant and not dead. -/
def State.runners (s : State) (p : Nat) : List Nat :=
  (s.partRegions p).flatMap fun r => (s.liveCores r).filter fun c => !(s.core c).dead

/-! ### The end of a step's batch -/

/-- The step in flight of a partition is discarded whole: nothing of it is committed, and its queued vault operations go with it
(R102, R249, R428; DEDUCED, log 162). -/
def State.dropRun (s : State) (p : Nat) : State :=
  if (s.part p).phase = .none then s
  else
    let s := (s.stopRun p true).emptyPart p false
    s.updPart p fun x => { x with phase := .none, items := [], faults := [], reruns := 0, wdogs := 0, freezeAt := none
                                  tuneRun := 0, act8 := false, runNo := 0 }

end Sys2Proof.Machine
end

