-- ==== Sys2Proof/Machine/Shake.lean ====
section
/-!
DEFINITION. SHAKE256, which the spec names for its digests (R186, R255, R286, R318, R444); the permutation is that of FIPS 202
(PRESUMED, log 226).
-/
namespace Sys2Proof.Machine

/-- A 64-bit lane turned left. -/
def lane64 (x n : Nat) : Nat := x * 2 ^ n % 2 ^ 64 + x / 2 ^ (64 - n)
/-- Turns of the lanes, x + 5 y. -/
def keccakTurns : List Nat := [0, 1, 62, 28, 27, 36, 44, 6, 55, 20, 3, 10, 43, 25, 39, 41, 45, 15, 21, 8, 18, 2, 61, 56, 14]
/-- Constants of the 24 rounds. -/
def keccakConsts : List Nat :=
  [0x1, 0x8082, 0x800000000000808A, 0x8000000080008000, 0x808B, 0x80000001, 0x8000000080008081, 0x8000000000008009,
   0x8A, 0x88, 0x80008009, 0x8000000A, 0x8000808B, 0x800000000000008B, 0x8000000000008089, 0x8000000000008003,
   0x8000000000008002, 0x8000000000000080, 0x800A, 0x800000008000000A, 0x8000000080008081, 0x8000000000008080, 0x80000001,
   0x8000000080008008]
/-- One round on 25 lanes. -/
def keccakRound (a : List Nat) (rc : Nat) : List Nat :=
  let c := (List.range 5).map fun x => (List.range 5).foldl (fun v y => v ^^^ a.getD (x + 5 * y) 0) 0
  let d := (List.range 5).map fun x => c.getD ((x + 4) % 5) 0 ^^^ lane64 (c.getD ((x + 1) % 5) 0) 1
  let b := (List.range 25).map fun i =>
    let j := (i % 5 + 3 * (i / 5)) % 5 + 5 * (i % 5)
    lane64 (a.getD j 0 ^^^ d.getD (j % 5) 0) (keccakTurns.getD j 0)
  ((List.range 25).map fun i =>
    let at_ := fun k => b.getD ((i + k) % 5 + 5 * (i / 5)) 0
    b.getD i 0 ^^^ ((2 ^ 64 - 1 - at_ 1) &&& at_ 2)).modify 0 (rc ^^^ ·)
/-- The permutation. -/
def keccak (a : List Nat) : List Nat := keccakConsts.foldl keccakRound a
/-- Absorb whole blocks of 136 bytes. -/
def keccakAbsorb : Nat → List Byte → List Nat → List Nat
  | 0, _, a => a
  | n + 1, bs, a =>
    keccakAbsorb n (bs.drop 136) (keccak ((List.range 25).map fun i =>
      a.getD i 0 ^^^ (if i < 17 then ((bs.drop (8 * i)).take 8).foldr (fun b v => b.toNat + 256 * v) 0 else 0)))
/-- The first n ≤ 136 bytes of SHAKE256 of a byte string. -/
@[irreducible] def shake256 (n : Nat) (bs : List Byte) : List Byte :=
  let pad := 136 - bs.length % 136
  let tail : List Byte := if pad = 1 then [0x9F] else 0x1F :: (List.replicate (pad - 2) 0 ++ [0x80])
  let a := keccakAbsorb (bs.length / 136 + 1) (bs ++ tail) (List.replicate 25 0)
  ((List.range 17).flatMap fun i => (List.range 8).map fun j => BitVec.ofNat 8 (a.getD i 0 / 256 ^ j)).take n

end Sys2Proof.Machine
end

