-- ==== Sys2Proof/Machine/ImageOps.lean ====
section
/-!
DEFINITION. Model images in the vaults (R254 to R263), the pointer table (R267), and what becomes of a partition that
ends its load or is unloaded (R18, R193, R195).
-/
namespace Sys2Proof.Machine

/-! ### Digests -/

/-- A digest: SHAKE256 with 512-bit output, as the number its bytes spell (R13, R186). -/
def dig (bs : List Byte) : Nat := leNat (shake256 64 bs)

/-! ### The unit table (R254 to R257) -/

/-- Signed 16-bit fields of a byte string. -/
def leInts (bs : List Byte) (off n : Nat) : List Int := (List.range n).map fun i => sgn16 (leAt bs (off + 2 * i) 2)
/-- Units of an image head. The length of a segment runs to the next one: both are multiples of 64. -/
def imgUnits (bs : List Byte) : List WUnit :=
  let n := leAt bs 0x00C 2
  let total := leAt bs 0x010 8
  (List.range n).map fun i =>
    let o := 0x400 + 96 * i
    let off := leAt bs (o + 0x18) 8
    { kind := leAt bs o 1, index := leAt bs (o + 1) 1, wid := leAt bs (o + 2) 1, base := leAt bs (o + 4) 4
      len := leAt bs (o + 8) 4, erefs := leInts bs (o + 12) 4, off := off
      size := (if i + 1 < n then leAt bs (o + 96 + 0x18) 8 else total) - off, digest := leAt bs (o + 0x20) 64 }
/-- Bytes of a count table of n cores. -/
def countBytes (n : Nat) : Nat := (2 * n + 63) / 64 * 64
/-- Count of core i in a segment. -/
def segCount (bs : List Byte) (off i : Nat) : Nat := leAt bs (off + 2 * i) 2
/-- Burst k of core i of a unit's segment, zero beyond its count (R257). -/
def segBurst (bs : List Byte) (off n i k : Nat) : List Byte :=
  if k < segCount bs off i then
    let before := (List.range i).foldl (fun a j => a + segCount bs off j) 0
    (bs.drop (off + countBytes n + 64 * (before + k))).take 64
  else List.replicate 64 0

/-! ### Logical cores of a partition -/

/-- Cores of a partition's rectangle. -/
def Part.coreCount (x : Part) : Nat := 1024 * x.rows * x.cols
/-- Physical core of the i-th logical core of the rectangle, in ascending logical y, then x (R197, R257). -/
def State.partCore (s : State) (p i : Nat) : Nat :=
  let x := s.part p
  let w := 32 * x.cols
  let lx := i % w
  let ly := i / w
  let r := x.host (8 * (x.row0 + ly / 32) + x.col0 + lx / 32)
  s.physOf (16 * r + 4 * (ly % 32 / 8) + lx % 32 / 8) (ly % 8) (lx % 8)
/-- Rectangle index of a physical core, none for one that is not a logical core of the partition. -/
def State.coreIndex (s : State) (p c : Nat) : Option Nat :=
  let x := s.part p
  match s.logXY c with
  | none => none
  | some (lx, ly) =>
    let r := regionOf c
    match x.rect.find? fun q => decide (x.host q = r) with
    | none => none
    | some q => some (32 * x.cols * (32 * (q / 8 - x.row0) + ly % 32) + 32 * (q % 8 - x.col0) + lx % 32)
/-- The partition's regions with the standby regions its load reserves. -/
def State.allRegions (s : State) (p : Nat) : List Nat :=
  let x := s.part p
  (x.rect ++ x.standby ++ s.partRegions p).eraseDups

/-- Write a unit of an image into every non-vacant core of the partition, its slot beginning at a burst. -/
def State.writeUnit (s : State) (p : Nat) (img : List Byte) (u : WUnit) (base : Nat) : State :=
  let n := (s.part p).coreCount
  (List.range n).foldl (fun s i =>
    let c := s.partCore p i
    if (s.core c).vacant then s
    else s.portWrite c base ((List.range u.len).map (segBurst img u.off n i))) s
/-- A logical core holds tiles of adapter slot k: of A in row k mod 256, of B in column k mod 256 (R263). -/
def Part.adaptCore (x : Part) (k i : Nat) : Bool :=
  decide (i / (32 * x.cols) = k % 256) || decide (i % (32 * x.cols) = k % 256)
/-- Write a unit of an adapter into the cores that hold tiles of slot k, or that the image gives bursts for; the slots of other rows
and columns stay (R263; DESIGN CHOICE, log 231: no rule divides a core's share of the pool between its row's and its column's slots). -/
def State.writeAdapter (s : State) (p : Nat) (img : List Byte) (u : WUnit) (k : Nat) (cores : List Nat) : State :=
  let x := s.part p
  cores.foldl (fun s i =>
    let c := s.partCore p i
    if (s.core c).vacant ∨ !(x.adaptCore k i || decide (segCount img u.off i ≠ 0)) then s
    else s.portWrite c (x.adapterBase k u.base) ((List.range u.len).map (segBurst img u.off x.coreCount i))) s
/-- Bursts `a` to `a + n` of one vault's contents in another, as they are stored. -/
def Vault.copyArea (v src : Vault) (a n : Nat) : Vault :=
  let cut := fun (t : List Host.Cell) (u : List Host.Cell) (z : Nat) =>
    (t.filter fun c => decide (c.1 < z * a)) ++ (u.filter fun c => decide (z * a ≤ c.1) && decide (c.1 < z * (a + n)))
      ++ t.filter fun c => decide (z * (a + n) ≤ c.1)
  { v with data := cut v.data src.data 64, chk := cut v.chk src.chk 8, wb := v.wb.filter fun i => decide (i < a) || decide (a + n ≤ i) }
/-- Bursts of a vault whose stored check differs. -/
def Vault.marked (v : Vault) : List Nat := (v.chk.map fun x => x.1 / 8).eraseDups
/-- The second ports copy bursts `a` to `a + n` of one vault into another (R121, R128, R131): each is decoded as it is read and
written with its check code, a corrected one corrected, any other poisoned. The bursts that were not correctable. -/
def State.portCopy (s : State) (from_ to_ a n : Nat) : State × List Nat :=
  let v := s.vault from_
  (v.marked.filter fun i => decide (a ≤ i) && decide (i < a + n)).foldl (fun (x : State × List Nat) i =>
    match x.1.vaultRead from_ i 1 false false with
    | (s, bs, false) => (s.setVault to_ ((s.vault to_).write i bs), x.2)
    | (s, bs, true) => (s.setVault to_ ((s.vault to_).poison i bs), x.2 ++ [i])) (s.setVault to_ ((s.vault to_).copyArea v a n), [])
/-- Copy bursts of every protected region into the vaults of its standby region; where the pairing is in force the standby region runs
the partition, and its bursts are copied back (R212, R272). -/
def State.standbyRange (s : State) (p a n : Nat) : State :=
  (s.part p).pairs.zipIdx.foldl (fun s ((r, q), k) =>
    let (r, q) := if (s.part p).alt = k + 1 then (q, r) else (r, q)
    (List.range 1024).foldl (fun s i =>
      let src := s.physOf (16 * r + i / 64) (i % 64 / 8) (i % 8)
      let dst := s.physOf (16 * q + i / 64) (i % 64 / 8) (i % 8)
      (s.portCopy src dst a n).1) s) s
/-- Pointer table entries of an image loaded whole (R267). -/
def Part.ptrsOf (x : Part) (units : List WUnit) (image : Nat) (erefs : WUnit → List Int) : List PtrEntry :=
  (units.filter fun u => decide (u.kind ≤ 3)).map fun u =>
    { kind := u.kind, index := u.index, base := x.kindFirst u.kind + u.base, len := u.len, erefs := erefs u, image := image, wid := u.wid
      home := u.base }

/-! ### Sources of images -/

/-- Measurement of an image from its head (R254). -/
def imgMeasure (bs : List Byte) : Nat := dig (bs.take 0xC400)
/-- Bytes of a transfer, absent ones 0. -/
def Xfer.bytes (x : Xfer) (n : Nat) : List Byte := (List.range n).map fun i => (tget x.data none i).getD 0
/-- The verified bytes of an image: a stored one, or one transferred to a partition and still staged. -/
def State.imageSource (s : State) (d : Nat) : Option (List Byte) :=
  match s.findObj ObjKind.image d with
  | some o => some o.data
  | none =>
    ((s.xfers.filter fun x => x.verified && decide (x.kind ≠ 0) && decide (x.kind ≠ 2)).map fun x => x.bytes x.total).find?
      fun bs => decide (imgMeasure bs = d)
/-! ### Restoring bursts (R261, R415) -/

/-- Slots that hold units: of both copies of the pointer table, and those a staged doff has written (R267, R269). -/
def Part.slots (x : Part) : List PtrEntry :=
  x.ptrs ++ x.ptrsB ++ (x.doff.units.zip x.doff.dst).map fun (u, b) =>
    { kind := u.kind, index := u.index, base := b, len := u.len, erefs := u.erefs, image := x.doff.image, wid := u.wid, home := u.base }

/-- The contents of a burst of a core's weights, from the images on the spool: zero between units. -/
def State.imageBurst (s : State) (p c burst : Nat) : Option (List Byte) :=
  let x := s.part p
  match x.slots.find? fun e => decide (e.base ≤ burst) && decide (burst < e.base + e.len) with
  | none => some (List.replicate 64 0)
  | some e =>
    match s.imageSource e.image, s.coreIndex p c with
    | some bs, some i =>
      ((imgUnits bs).find? fun u => decide (u.kind = e.kind) && decide (u.index = e.index)).map fun u =>
        segBurst bs u.off x.coreCount i (burst - e.base)
    | _, _ => none
/-- A burst's area kind in the partition's layout. -/
def Part.kindAt (x : Part) (burst : Nat) : Nat :=
  ((x.areas.find? fun a => decide (a.2.2.1 ≤ burst) && decide (burst < a.2.2.1 + a.2.2.2)).map (·.1)).getD 0xFF

/-! ### Transfers -/

/-- IMG_DONE (R323, R328): CHECK the failed step of R192 or 0, PHASE 1 verified or stored, 2 loaded, with a status. -/
def State.imgDone (s : State) (x : Xfer) (check phase status digest : Nat) : State :=
  if x.ses = 0 then s
  else s.send x.ses 2 4 false false 0 status x.part (beBytes 4 x.id ++ beBytes 1 check ++ beBytes 1 phase ++ beBytes 2 0 ++ leBytes 64 digest)
/-- Remove a transfer. -/
def State.dropXfer (s : State) (id : Nat) : State := { s with xfers := s.xfers.filter fun x => decide (x.id ≠ id) }

/-! ### A partition's end -/

/-- A partition number that is free again. Its serving settings, counters and sticky bits stay in their registers. -/
def Part.free (x : Part) : Part :=
  { Part.reset with
    last := x.last, errCheck := x.errCheck, errType := x.errType, lateCnt := x.lateCnt, wdogCnt := x.wdogCnt
    fSat := x.fSat, fBxo := x.fBxo, fFall := x.fFall, fGroup := x.fGroup, fLayer := x.fLayer, fMark := x.fMark
    replays := x.replays, fallbacks := x.fallbacks, decayEn := x.decayEn, kvEvict := x.kvEvict, kvLost := x.kvLost
    kvClamp := x.kvClamp, kvZero := x.kvZero, kvDefer := x.kvDefer, kvResend := x.kvResend, doffCnt := x.doffCnt
    sched := x.sched, spool := x.spool, waits := x.waits, tokens := x.tokens, specAcc := x.specAcc, specProp := x.specProp
    stops := x.stops, narrowed := x.narrowed, repRegion := x.repRegion, repCluster := x.repCluster, repCore := x.repCore
    repOrigin := x.repOrigin, repVault := x.repVault, repReruns := x.repReruns, repairs := x.repairs, repLast := x.repLast
    repMax := x.repMax, powLull := x.powLull }
/-- A region goes to the state of R18: in no partition, IDLE if it is powered, seams closed, its cores run no program and hold no
router entries; pads, shadows and I-stores keep their contents in retention (R109, R110). -/
def State.freeRegion (s : State) (r : Nat) : State :=
  let s := s.idleRegion r
  let s := (List.range 1152).foldl (fun s i => s.updCore (1152 * r + i) fun k =>
    { Core.reset with dead := k.dead, cycle := k.cycle, pad := k.pad, shadow := k.shadow, istore := k.istore }) s
  let s := (List.range 16).foldl (fun s i => s.updCluster (16 * r + i) fun u => { u with vacant := 0 }) s
  s.updRegion r fun g =>
    { g with part := none
             clk := if g.clk.kCap = 0 then g.clk else { g.clk with kCap := 16, kFloor := 8 }
             net := { g.net with plan := 0, closed := 0xF, slack := 0, held := none, inFrame := false, seqPos := 0, seqRep := 0 }
             agt := { g.agt with standby := false } }
/-- The partition lets go of its regions, its standby regions, its tree groups and its number (R195 steps 3 and 4). -/
def State.freePart (s : State) (p : Nat) : State :=
  let rs := s.allRegions p
  let s := rs.foldl (fun s r =>
    if (s.region r).part = some p ∨ (s.part p).standby.contains r then s.freeRegion r else s) s
  let s := s.updTree fun t => { t with groups := t.groups.filter fun g => decide (g.part ≠ p) }
  s.updPart p Part.free
/-- Every bank of a region's vaults reads zero with valid check symbols (R129, R195 step 2). -/
def State.zeroVaults (s : State) (r : Nat) : State :=
  (List.range 1152).foldl (fun s i => s.setVault (1152 * r + i) { s.vault (1152 * r + i) with data := [], chk := [], wb := [] }) s

/-- A load ends without a partition (R193): the status and the error fields remain. A transfer of the load that is still
open ends with it. -/
def State.loadEnds (s : State) (p check typ status : Nat) : State :=
  let s := (s.xfers.filter fun x => decide (x.target = 0) && decide (x.part = p)).foldl (fun s x =>
    (s.imgDone x check (if x.verified then 2 else 1) status 0).dropXfer x.id) s
  (s.freePart p).updPart p fun x => { x with last := status, errCheck := check, errType := typ }

end Sys2Proof.Machine
end

