-- ==== Sys2Proof/Machine/DoffOps.lean ====
section
/-!
DEFINITION. Doffing (R267 to R272): staging slots, the switch, an in-place unit, and how a doff ends.
-/
namespace Sys2Proof.Machine

/-- Drop the staged transfers of an image. -/
def State.imageDone (s : State) (d : Nat) : State :=
  { s with xfers := s.xfers.filter fun x =>
      !(x.verified && decide (x.kind ≠ 0) && decide (x.kind ≠ 2) && decide (x.target = 0) && decide (imgMeasure (x.bytes x.total) = d)) }

/-! ### Staging slots (R269) -/

/-- Bursts that no copy of the pointer table names and that lie in a staging area or in a weights area of the kind:
slots alternate between the two (R269). -/
def Part.stagingFree (x : Part) (kind : Nat) (taken : List (Nat × Nat)) (b len : Nat) : Bool :=
  let inArea := x.areas.any fun a =>
    (decide (a.1 = 4) || decide (a.1 = if kind ≤ 1 then 0 else 1)) && decide (a.2.2.1 ≤ b) && decide (b + len ≤ a.2.2.1 + a.2.2.2)
  let busy := (x.ptrs ++ x.ptrsB).map (fun e => (e.base, e.len)) ++ taken
  inArea && busy.all fun y => decide (b + len ≤ y.1) || decide (y.1 + y.2 ≤ b)
/-- The lowest free slot of a unit: it begins where an area or another slot ends, on an even burst. -/
def Part.stagingSlot (x : Part) (u : WUnit) (taken : List (Nat × Nat)) : Option Nat :=
  let starts := (x.areas.map (·.2.2.1)) ++ ((x.ptrs ++ x.ptrsB).map fun e => e.base + e.len) ++ taken.map fun y => y.1 + y.2
  ((starts.map fun b => b + b % 2).filter fun b => x.stagingFree u.kind taken b u.len).min?
/-- A free slot for each unit, or none if they do not all fit. -/
def Part.stagingSlots (x : Part) : List WUnit → List (Nat × Nat) → Option (List Nat)
  | [], _ => some []
  | u :: us, taken => (x.stagingSlot u taken).bind fun b => (x.stagingSlots us (taken ++ [(b, u.len)])).map (b :: ·)

/-! ### Exponents and the pointer table -/

/-- Exponent entries of a doffed layer take the image's compiled values (R70, R256, R267). -/
def ExpEntry.doff (e : ExpEntry) (kind index : Nat) (erefs : List Int) : ExpEntry :=
  let r := if kind = 0 ∧ e.layer = index ∧ e.group < 4 then erefs[e.group]?
    else if kind = 1 ∧ e.layer = 0xFF then erefs[0]? else none
  match r with
  | some x => { e with comp := x, cur := x, quiet := 0 }
  | none => e
/-- The pointer table with a unit at a new base. -/
def repoint (ptrs : List PtrEntry) (u : WUnit) (base image : Nat) : List PtrEntry :=
  ptrs.map fun e => if e.kind = u.kind ∧ e.index = u.index then { e with base := base, erefs := u.erefs, image := image } else e
/-- Class 0x3D (R273). -/
def State.weightsEv (s : State) (p mode epoch image : Nat) : State :=
  s.raise (s.partEv p 0x3D (sp [(0, 1, mode), (1, 1, epoch), (8, 8, leNat (leBytes 8 image).reverse)]))

/-! ### Starting, switching and ending (R268 to R270) -/

/-- Begin a doff whose image is verified: staged where every unit has a slot, else in place (R269, R270). Staged units
are written into their slots at once, and the doff awaits its switch; in place, the new slices are staged in the vaults of the spare
cores, at bursts no rule gives (DESIGN CHOICE, log 230). -/
def State.beginDoff (s : State) (p image : Nat) (inPlace : Bool) : State :=
  match s.imageSource image with
  | none => s
  | some bs =>
    let s := s.imageRead image
    let units := imgUnits bs
    let slots := if inPlace then none else (s.part p).stagingSlots units []
    match slots with
    | some dst =>
      let s := (units.zip dst).foldl (fun s (u, b) => (s.writeUnit p bs u b).standbyRange p b u.len) s
      s.updPart p fun x =>
        { x with doff := { state := 2, inPlace := false, image := image, units := units, dst := dst, done := units.length, data := [], again := [] } }
    | none => s.updPart p fun x =>
        { x with doff := { state := 1, inPlace := true, image := image, units := units, dst := [], done := 0, data := bs, again := [] } }
/-- The next waiting doff begins once the old slots are free (R268, R272). -/
def State.nextDoff (s : State) (p : Nat) : State :=
  let x := s.part p
  if x.doff.state = 0 ∧ !x.oldLive then
    match x.doffWait with
    | [] => s
    | (d, ip) :: rest => (s.updPart p fun x => { x with doffWait := rest }).beginDoff p d ip
  else s
/-- The last step of the old epoch has ended: its slots are free, the switch is counted (R269 step 4), its copy of the table goes, and with it its exponents of
the units that were switched; the step had run on its own snapshot to the end (R267, R268). -/
def State.oldEpochEnds (s : State) (p : Nat) : State :=
  if (s.part p).oldLive then
    (s.updPart p fun x =>
      { x with oldLive := false, ptrsB := [], doffCnt := satInc x.doffCnt
               exps := x.exps.map fun e => (x.ptrs.filter fun y => !x.ptrsB.contains y).foldl (fun e y => e.doff y.kind y.index y.erefs) e }).nextDoff p
  else s
/-- The step in flight is discarded whole, and the old epoch ends with it. -/
def State.dropStep (s : State) (p : Nat) : State := (s.dropRun p).oldEpochEnds p

/-- The switch of a staged doff (R268, R269): the inactive copy is written, the copies are swapped and the epoch rises. -/
def State.switchDoff (s : State) (p : Nat) : State :=
  let x := s.part p
  let d := x.doff
  let new := (d.units.zip d.dst).foldl (fun t (u, b) => repoint t u b d.image) x.ptrs
  let epoch := (x.epoch + 1) % 256
  let live := decide (x.phase ≠ .none)
  let s := s.updPart p fun x =>
    { x with ptrs := new, ptrsB := if live then x.ptrs else [], epoch := epoch, oldLive := live, doffCnt := if live then x.doffCnt else satInc x.doffCnt
             exps := if live then x.exps else x.exps.map fun e => d.units.foldl (fun e u => e.doff u.kind u.index u.erefs) e
             wtDigest := d.image, mixed := false, doff := .idle }
  (((s.weightsEv p 0 epoch d.image).imageDone d.image)).nextDoff p

/-- One unit of an in-place doff is copied into its live slot and the epoch raised (R270); after the last one the doff
is complete. The barrier's hold ends. -/
def State.inPlaceUnit (s : State) (p : Nat) : State :=
  let x := s.part p
  let d := x.doff
  match d.units[d.done]? with
  | some u =>
    let bs := d.data
    let base := ((x.ptrs.find? fun e => decide (e.kind = u.kind) && decide (e.index = u.index)).map (·.base)).getD
      (x.kindFirst u.kind + u.base)
    let s := (s.writeUnit p bs u base).standbyRange p base u.len
    let epoch := (x.epoch + 1) % 256
    let last := decide (d.done + 1 ≥ d.units.length)
    let s := s.updPart p fun x =>
      { x with ptrs := repoint x.ptrs u base d.image, epoch := epoch, doffCnt := satInc x.doffCnt
               exps := x.exps.map fun e => e.doff u.kind u.index u.erefs, mixed := !last
               wtDigest := if last then d.image else x.wtDigest
               doff := if last then .idle else { d with state := 1, done := d.done + 1 } }
    let s := s.weightsEv p 1 epoch d.image
    let s := if (s.part p).held = 4 then s.releasePart p else s
    if last then (s.imageDone d.image).nextDoff p else s
  | none => s
/-- A row of the partition has no spare vault for its slices: its spare is dead or used by repair (R271). -/
def State.spareless (s : State) (p : Nat) : Bool :=
  (s.partRegions p).any fun r => (List.range 16).any fun i => (List.range 8).any fun row =>
    decide (remapRow (s.cluster (16 * r + i)).remap row ≠ 15)
/-- A copy at a barrier completes before a repair begins (R272). -/
def State.barrierEnds (s : State) (p : Nat) : State := if (s.part p).doff.state = 3 then s.inPlaceUnit p else s

/-- An abort or an unload ends the doffs of a partition (R272): staged slots are freed; of an in-place doff the unit
being copied completes, and the units replaced so far stand. -/
def State.endDoff (s : State) (p : Nat) : State :=
  let s := s.updPart p fun x => { x with doffWait := [] }
  let d := (s.part p).doff
  let s := if d.state = 3 then s.inPlaceUnit p else s
  s.updPart p fun x => { x with doff := .idle }

end Sys2Proof.Machine
end

