-- ==== Sys2Proof/Machine/FaultOps.lean ====
section
/-!
DEFINITION. Partitions that stop and go down (R300, R419, R421, R428) and cores declared dead (R412, R416, R417).
-/
namespace Sys2Proof.Machine

/-- Microseconds between two times. -/
def usSince (a b : Nat) : Nat := (b - a) / 175

/-- An abort's effect on a partition's work (R102, R116, R160, R182, R272, R428): the step is discarded, pads and queues
are emptied, tree traffic of types 4 to 6 goes, and its doffs end. -/
def State.stopWork (s : State) (p : Nat) : State :=
  let s := ((s.updPart p fun x => { x with doffWait := [] }).dropStep p).emptyPart p false
  let s := s.dropTraffic p true
  s.endDoff p

/-- A tuning turn is interrupted: its step in flight is discarded, and the sections it leaves applied are put back before
the next serving launch (R249). -/
def State.untune (s : State) (p : Nat) : State := s.updPart p fun x => { x with tuneRun := 0 }

/-- A partition goes down (R421): it stops as under an abort, its requests follow R300, class 0x1A subkind 3. A repair
copy that runs completes (R135). -/
def State.partDown (s : State) (p cause : Nat) : State :=
  let out := ((s.part p).repair.map fun r => usSince r.since s.clk.wtime).getD 0
  let s := (s.stopWork p).untune p
  let s := s.partEvent p .down
  let s := s.updPart p fun x =>
    { x with state := .down, downCause := cause, held := 0, applying := 0, pend := [], tunes := [], tuneSlot := none
             repair := x.repair.filter fun r => decide (r.stage = 1) }
  let s := (s.partRegions p).foldl State.idleRegion s
  s.raise (s.partEv p 0x1A (sp [(0, 1, 3), (1, 1, cause), (2, 4, out)]))
/-- A cause of going down meets a partition (R419, R432): one that is loading ends its load with PARTITION_BUSY, one that
serves goes down, another is not concerned. -/
def State.downCauseAt (s : State) (p cause : Nat) : State :=
  match (s.part p).state with
  | .ready => s.partDown p cause
  | .applying => s.partDown p cause
  | .loading => s.loadEnds p 0 0 stBusy
  | _ => s

/-- ORIGIN of a slub found while the part runs, with its cause (R409): the self-test's (cause 9) has origin 1. -/
def originOf (cause : Nat) : Nat := (if cause = 9 then 1 else 2) + 16 * cause
/-- Cause of the slub and of SRV_P_REP_STAT (R409): 1 slot or late, 2 engine, 3 pad, 4 I-store, 5 vault lost, 6 vault
failing, 7 heartbeat, 8 link. Entry of a core found dead at run time. -/
def State.deadSlub (s : State) (c cause : Nat) (lost : Bool) : State :=
  let spare := decide (logCol (remapRow (s.cluster (c / 72)).remap (c % 72 / 9)) (c % 9) = none)
  s.addSlub (mkSlub (if spare then 2 else 1) (regionOf c) (c / 72 % 16) (posByte c) (originOf cause)
    (if spare then 0 else lost.toNat) 0 s.clk.wtime)
/-- Slub of a dead core of a partition whose row is not shifted: with its vault lost it is a lost vault that could not be
shifted out, KIND 4 (R409, R410). -/
def State.goneSlub (s : State) (c cause : Nat) (lost : Bool) : State :=
  if lost then s.addSlub (mkSlub 4 (regionOf c) (c / 72 % 16) (posByte c) (originOf cause) 0 0 s.clk.wtime) else s.deadSlub c cause lost
/-- Write a remap entry. -/
def State.setRemap (s : State) (u r k : Nat) : State :=
  s.updCluster u fun x =>
    { x with remap := BitVec.ofNat 32 (x.remap.toNat - remapRow x.remap r * 16 ^ r + k * 16 ^ r) }

/-- A core is declared dead (R412, R416, R432). A spare only leaves its row without one; a core outside a serving or
loading partition only adds its slub. Otherwise a row with a spare, under LIVE_REPAIR, waits for the repair, and any
other brings the partition down. -/
def State.declareDead (s : State) (c cause : Nat) (lost : Bool) : State :=
  let u := c / 72
  let row := c % 72 / 9
  let k := remapRow (s.cluster u).remap row
  if (s.core c).dead then s
  else
    let s := s.updCore c fun x => { x with dead := true, wait := .none, run := if x.run = .running then .stopped else x.run }
    if k < 8 ∧ c % 9 = k then s
    else if c % 9 = 8 ∧ (k = 8 ∨ k = 15) then (s.deadSlub c cause lost).setRemap u row 8
    else if (s.core c).vacant then s.deadSlub c cause lost
    else match s.partOf c with
      | none => s.deadSlub c cause lost
      | some p =>
        let x := s.part p
        let again : Bool := match x.repair with
          | none => false
          | some r => r.dead.any fun d => decide (d.1 / 9 = c / 9)
        match x.state with
        | .empty => s.deadSlub c cause lost
        | .receiving => s.deadSlub c cause lost
        | .verifying => s.deadSlub c cause lost
        | .down => s.deadSlub c cause lost
        | .unloading => s.deadSlub c cause lost
        | _ =>
          if k ≠ 15 ∨ again then (s.goneSlub c cause lost).downCauseAt p 1
          else if !x.policy 0 then (s.goneSlub c cause lost).downCauseAt p 2
          else s.updPart p fun x => match x.repair with
            | none => { x with repair := some { since := s.clk.wtime, dead := [(c, cause, lost)], stage := 0, copied := 0 } }
            | some r => { x with repair := some { r with dead := r.dead ++ [(c, cause, lost)] } }

/-- Declare what the vaults of a partition report (R134, R412): a lost vault at once, a failing one between steps. -/
def State.vaultHealth (s : State) (p : Nat) : State :=
  ((s.partRegions p).flatMap fun r => (List.range 1152).map (1152 * r + ·)).foldl (fun s c =>
    let v := s.vault c
    if v.lost then s.declareDead c 5 true
    else if v.failing && decide ((s.part p).phase = .none) then s.declareDead c 6 false else s) s

/-! ### Strikes (R412) -/

/-- Strike kind of a class (R412): 0 slots, engine and pads, 1 I-store, 2 links. -/
def strikeKind (cls : Nat) : Option Nat :=
  if cls = 0x18 ∨ cls = 0x01 ∨ cls = 0x02 ∨ cls = 0x03 ∨ cls = 0x0E then some 0
  else if cls = 0x08 ∨ cls = 0x0A then some 1
  else if cls = 0x19 then some 2 else none
/-- Cause code of a class (R409). -/
def deadCause (cls : Nat) : Nat :=
  if cls = 0x18 then 1 else if cls = 0x0E then 3 else if cls = 0x08 ∨ cls = 0x0A then 4 else if cls = 0x19 then 8 else 2
/-- Window of a kind in ticks and the strikes that declare a core dead. -/
def strikeRule (kind : Nat) : Nat × Nat := if kind = 0 then (secs 1, 2) else if kind = 1 then (secs 3600, 2) else (secs 1, 16)

/-- Strike kind of a class in partition p: an illegal instruction is a strike in a production bit-stream alone (R412). -/
def State.strikeOf (s : State) (p cls : Nat) : Option Nat :=
  if cls = 0x08 ∧ (s.part p).debug = true then none else strikeKind cls

/-- One strike against the core at a logical position. -/
def State.strike (s : State) (p pos cls : Nat) : State :=
  match s.strikeOf p cls with
  | none => s
  | some kind =>
    let now := s.clk.wtime
    let (win, n) := strikeRule kind
    let c := s.physAt (pos % 256) (pos / 256)
    if (s.core c).vacant then s.deadSlub c (deadCause cls) false
    else
      let l := (tget (s.part p).strikes [] pos).filter fun x => decide (x.1 ≠ kind) || decide (now ≤ x.2 + win)
      let l := l ++ [(kind, now)]
      let s := s.updPart p fun x => { x with strikes := tset x.strikes [] pos l }
      if (l.filter fun x => decide (x.1 = kind)).length ≥ n then s.declareDead c (deadCause cls) false else s

/-! ### KV bursts (R226, R235, R236, R248) -/

/-- Group of a cluster, and its place in it. -/
def State.groupOf (s : State) (p u : Nat) : Option (Nat × Nat) :=
  ((s.groups p).zipIdx.find? fun (g, _) => g.contains u).map fun (g, i) => (i, (g.idxOf? u).getD 0)
/-- Pages a frame of a group holds: request index, page index, and whether in the ingest layout. -/
def State.framePages (s : State) (p f g : Nat) : List (Nat × Nat × Bool) :=
  (s.partReqs p fun _ => true).flatMap fun i =>
    ((s.req i).pages.zipIdx.filter fun (x, _) => x.resident && decide (x.f = f) && decide (x.g = g)).map fun (x, k) =>
      (i, k, decide (x.state = 2))
/-- Layer, KV head and page of the half-slice a pool burst of a core belongs to (R235, R236): a frame of the ingest layout holds
half-slices of both pages of its block. -/
def State.burstSlice (s : State) (p c off f h : Nat) (ingest : Bool) (page : Nat) : Nat × Nat × Nat :=
  let x := s.part p
  let slot := off / max 1 x.halfSlice
  let j := (s.logXY c).elim 0 fun (lx, ly) => 8 * (ly % 8) + lx % 8
  if ingest then
    let pi := (j + 64 * (page % 2)) * x.kvHeads + h
    let y := slot * 128 * x.kvHeads + pi
    (y / max 1 (4 * x.kvHeads), y % max 1 (4 * x.kvHeads) / 4, page / 2 * 2 + y % 4 / 2)
  else ((64 * slot + (j + 64 * 64 - 2 * f % 64) % 64) / 2, h, page)

/-- An uncorrectable KV burst of a core (R122, R248): the page that holds it is lost; a burst of the KV state area loses
the requests whose state lies in it. -/
def State.kvBurstLost (s : State) (p c burst : Nat) : State :=
  let x := s.part p
  match x.kindAt burst with
  | 3 =>
    match x.area 3 x.pool, s.groupOf p (c / 72) with
    | some (first, _), some (g, h) =>
      let f := (burst - first) / max 1 x.pageBursts
      let off := (burst - first) % max 1 x.pageBursts
      (s.framePages p f g).foldl (fun s (i, k, ing) =>
        if (s.req i).pages[k]?.isSome then
          let (l, hd, page) := s.burstSlice p c off f h ing k
          s.pageLost i page l hd
        else s) s
    | _, _ => s
  | 6 => (s.partReqs p fun r => r.slot).foldl (fun s i =>
      if (s.req i).slot && Config.holdsState c burst i then s.pageLost i 0 0 0 else s) s
  | _ => s

/-- Deal with the uncorrectable bursts found in a partition between two launches (R248, R415): KV pages are lost;
weight bursts are written again from the image on the spool (class 0x1A subkind 2), and one that cannot be restored
brings the partition down. -/
def State.restoreBursts (s : State) (p : Nat) : State :=
  let l := (s.part p).bad
  let s := s.updPart p fun x => { x with bad := [] }
  l.foldl (fun s (c, b) =>
    let x := s.part p
    let k := x.kindAt b
    if k = 3 ∨ k = 6 then s.kvBurstLost p c b
    else if k = 0 ∨ k = 1 then
      if x.state = .down then s
      else match if x.policy 1 && x.restore then s.imageBurst p c b else none with
        | some bs => (s.setVault c ((s.vault c).write b bs)).raise (s.coreEv c 0x1A (sp [(0, 1, 2)]))
        | none => s.partDown p 5
    else s) s

end Sys2Proof.Machine
end

