-- ==== Sys2Proof/Machine/LoadOps.lean ====
section
/-!
DEFINITION. Writing a configuration into the cores, switches and regions of a partition (R110 to R117, R150, R158, R172,
R194, R197 to R210, R220).
-/
namespace Sys2Proof.Machine

/-! ### Sections (R197 to R206) -/

/-- CMAP entry of the i-th logical core: program class, router set, vacant (R197). -/
def cmapEntry (cm : List Byte) (i : Nat) : Nat × Nat × Bool :=
  let x := leAt cm (4 * i) 4
  (x % 1024, x / 1024 % 1024, x.testBit 20)
/-- Bytes rounded up to 64. -/
def pad64 (n : Nat) : Nat := (n + 63) / 64 * 64
/-- Offsets of consecutive blocks, each of a length read at its offset. -/
def blockOffs (len : Nat → Nat) : Nat → Nat → List Nat
  | 0, _ => []
  | n + 1, o => o :: blockOffs len n (o + len o)
/-- Program class blocks of PROG (R199). -/
def progOffs (pg : List Byte) : List Nat := blockOffs (fun o => pad64 (16 + 8 * leAt pg o 2)) (leAt pg 0 2) 64
/-- Router set blocks of PLAN (R200). -/
def rsetOffs (pl : List Byte) : List Nat := blockOffs (fun o => pad64 (64 + 4 * leAt pl o 2)) (leAt pl 0x110 2) 0x140
/-- Entry size of a switch table: 16 B at cluster ports, 8 B elsewhere (R205). -/
def tabEntry (ident : Nat) : Nat := if ident ≥ 0x1000 then 16 else 8
/-- Switch tables of ROUTE (R204). -/
def tabOffs (rt : List Byte) : List Nat :=
  blockOffs (fun o => pad64 (8 + leAt rt (o + 4) 4 * tabEntry (leAt rt o 4))) (leAt rt 0 2) 64
/-- Offset of the send route sets. -/
def routeOff (rt : List Byte) : Nat :=
  match (tabOffs rt).getLast? with
  | none => 64
  | some o => o + pad64 (8 + leAt rt (o + 4) 4 * tabEntry (leAt rt o 4))

/-- Circular region descriptors of a BANK block (R113, R206): HEAD and TAIL 0. -/
def bankCirc (b : List Byte) : Table Circ :=
  (List.range 48).filterMap fun i =>
    let x := leAt b (8 * i) 8
    let c : Circ := ⟨x % 2 ^ 18, x / 2 ^ 18 % 2 ^ 18, 0, 0⟩
    if c = ⟨0, 0, 0, 0⟩ then none else some (i, c)
/-- LPUTDIR of a BANK block. -/
def bankLput (b : List Byte) : Table Nat :=
  (List.range 16).filterMap fun i => let x := leAt b (0x180 + i) 1; if x = 0 then none else some (i, x)

/-- The sections of a configuration the cores hold. -/
structure CoreCfg where
  cmap : List Byte
  prog : List Byte
  plan : List Byte
  route : List Byte
  bank : List Byte
  deriving DecidableEq, Repr
/-- Those in force. -/
def Part.coreCfg (x : Part) : CoreCfg := ⟨x.sect 2, x.sect 3, x.sect 4, x.sect 5, x.sect 6⟩

/-- A core with its program, router set, send routes and BANK block (R194 step 3); registers untouched. -/
def Core.configure (k : Core) (g : CoreCfg) (i : Nat) : Core :=
  let (cls, rs, vac) := cmapEntry g.cmap i
  let po := (progOffs g.prog).getD cls 0
  let n := leAt g.prog po 2
  let code : Table DWord := (List.range n).filterMap fun j =>
    let w := BitVec.ofNat 64 (leAt g.prog (po + 16 + 8 * j) 8)
    if w = 0 then none else some (j, w)
  let ro := (rsetOffs g.plan).getD rs 0
  let so := routeOff g.route + 64 * cls
  let b := (g.bank.drop (64 + 512 * cls)).take 512
  if vac then { Core.reset with dead := k.dead, pad := k.pad, shadow := k.shadow, vacant := true }
  else
    { k with vacant := false, istore := code, entryIngest := BitVec.ofNat 12 (leAt g.prog (po + 2) 2)
             entrySpin := BitVec.ofNat 12 (leAt g.prog (po + 4) 2)
             router := (List.range (leAt g.plan ro 2)).map fun j => BitVec.ofNat 32 (leAt g.plan (ro + 64 + 4 * j) 4)
             routes := (List.range 16).map fun j => BitVec.ofNat 32 (leAt g.route (so + 4 * j) 4)
             circ := bankCirc b, lputDir := bankLput b, inbox1 := BitVec.ofNat 8 (leAt b 0x190 1)
             inbox2 := BitVec.ofNat 8 (leAt b 0x191 1) }

/-- Compiled initial credits of a core (R117): SIZE ÷ 64 of each A-pad region of a neighbour that declares this core as
its writer. -/
def State.creditsOf (s : State) (c : Nat) : Table Nat :=
  (List.range 4).flatMap fun d =>
    match if s.linkClosed c d then none else s.neighbor c d with
    | none => []
    | some n =>
      let k := s.core n
      (List.range 16).filterMap fun g =>
        let v := if tget k.lputDir 0 g = (d + 2) % 4 + 1 then (tget k.circ ⟨0, 0, 0, 0⟩ (16 + g)).size / 64 else 0
        if v = 0 then none else some (16 * d + g, v)

/-! ### Switches (R172, R175, R204, R205) -/

/-- Switch number of an identifier (R204). -/
def identSw (i : Nat) : Nat :=
  if i ≥ 0x1000 then i - 0x1000 else if i ≥ 0x200 then 1096 + (i - 0x200) else if i ≥ 0x100 then 1088 + (i - 0x100) else 1024 + i
/-- Group entries of ROUTE for a partition, with the lanes compiled. -/
def routeGroups (rt : List Byte) (p : Nat) : List GroupEntry :=
  (tabOffs rt).flatMap fun o =>
    let id := leAt rt o 4
    let z := tabEntry id
    (List.range (leAt rt (o + 4) 4)).map fun j =>
      let w := leAt rt (o + 8 + z * j) z
      if z = 16 then
        { part := p, sw := identSw id, group := w % 4096, k := w / 4096 % 16 + 1, lane := 0, out := 0, cr := w / 65536 % 16
          cores := BitVec.ofNat 64 (w / 2 ^ 64) }
      else
        { part := p, sw := identSw id, group := w % 4096, k := w / 4096 % 16 + 1, lane := w / 65536 % 16
          out := w / 2 ^ 20 % 2 ^ 24, cr := 0, cores := 0 }
/-- Lane set above the region level: a quadrant's two trunks share one, the root halves share one (R172). -/
def laneSet (sw : Nat) : Option Nat := if sw < 1088 then none else if sw < 1096 then some ((sw - 1088) / 2) else some 4
/-- Give every trunk and root half the partition uses a lane index of its own within its lane set, none where the 16 do
not suffice (R172). -/
def placeLanes (have_ : List GroupEntry) (new : List GroupEntry) : Option (List GroupEntry) :=
  let ups := ((new.filter fun g => decide (g.sw ≥ 1088)).map (·.sw)).eraseDups
  let place := ups.foldl (fun (a : Option (List (Nat × Nat))) sw => a.bind fun l =>
    let used := ((have_.filter fun g => decide (g.sw ≥ 1088) && decide (laneSet g.sw = laneSet sw)).map (·.lane))
      ++ ((l.filter fun y => decide (laneSet y.1 = laneSet sw)).map (·.2))
    ((List.range 16).find? fun n => !used.contains n).map fun n => l ++ [(sw, n)]) (some [])
  place.map fun l => new.map fun g => match l.find? fun y => decide (y.1 = g.sw) with
    | some y => { g with lane := y.2 }
    | none => g
/-- Entries a switch's table holds (R175). -/
def tableSize (sw : Nat) : Nat := if sw ≥ 1088 then 16384 else 4096
/-- The groups fit every region switch, trunk and root half (R175, R216 step 10). -/
def groupsFit (have_ new : List GroupEntry) : Bool :=
  ((new.map (·.sw)).eraseDups).all fun sw =>
    decide (sw < 1024) || decide (((have_ ++ new).filter fun g => decide (g.sw = sw)).length ≤ tableSize sw)
/-- Write the partition's group entries. -/
def State.writeGroups (s : State) (p : Nat) : State :=
  let other := s.tree.groups.filter fun g => decide (g.part ≠ p)
  let new := routeGroups ((s.part p).sect 5) p
  s.updTree fun t => { t with groups := other ++ (placeLanes other new).getD new }

/-! ### Regions (R150, R158, R198, R356) -/

/-- Remap entry of a row from the defect map (R150): the lowest dead core shifts it, else a dead spare is 0x8. -/
def State.remapEntry (s : State) (u r : Nat) : Nat :=
  let dead := fun x => s.slubAt 1 (72 * u + 9 * r + x)
  match (List.range 8).find? dead with
  | some x => x
  | none => if dead 8 || s.slubAt 2 (72 * u + 9 * r + 8) then 8 else 15
/-- Write a region's remap tables (R194 step 3). -/
def State.writeRemap (s : State) (r : Nat) : State :=
  (List.range 16).foldl (fun s i =>
    let u := 16 * r + i
    let v := (List.range 8).foldl (fun a row => a + s.remapEntry u row * 16 ^ row) 0
    s.updCluster u fun x => { x with remap := BitVec.ofNat 32 v }) s
/-- K_cap and K_floor of a partition (R356). -/
def Part.clkLimits (x : Part) : Nat × Nat :=
  let cap := 2 * leAt (x.sect 0xA) 0 2 / 175
  let floor := max 8 ((2 * leAt (x.sect 0xA) 2 2 + 174) / 175)
  if x.debug then (min cap 12, min floor (min cap 12)) else (cap, floor)
/-- Seams of a region that lie on its partition's boundary, the wafer's edge, or beside a region of none (R18, R19, R158). -/
def State.boundary (s : State) (r : Nat) : BitVec 4 :=
  let mine := (s.region r).part
  let open_ := fun (ok : Bool) (q : Nat) => ok && mine.isSome && decide ((s.region q).part = mine) && pwrUp (s.region q).pwr.state
  let b := fun (x : Bool) => if x then 0 else 1
  BitVec.ofNat 4 (b (open_ (decide (r ≥ 8)) (r - 8)) + 2 * b (open_ (decide (r % 8 < 7)) (r + 1))
    + 4 * b (open_ (decide (r < 56)) (r + 8)) + 8 * b (open_ (decide (r % 8 > 0)) (r - 1)))
/-- Where a link of core c toward a direction has closed since state `old`, its credits are 0; where it has opened, they are the
compiled initial ones (R117, R118, R158). -/
def State.seamCredits (s old : State) (c : Nat) : State :=
  (List.range 4).foldl (fun s d =>
    if s.linkClosed c d = old.linkClosed c d then s
    else
      let new := (s.creditsOf c).filter fun x => decide (x.1 / 16 = d)
      let put := fun (t : Table Nat) => new.foldl (fun t x => tset t 0 x.1 x.2) (t.filter fun x => decide (x.1 / 16 ≠ d))
      s.updCore c fun k => { k with creditInit := put k.creditInit, credit := put k.credit }) s
/-- Set the closed seams of every region from the partitions as they stand, and the credits over those that change. -/
def State.setSeams (s : State) : State :=
  let s' := (List.range 64).foldl (fun s r => s.updNet r fun n => { n with closed := s.boundary r }) s
  ((List.range 64).filter fun r => decide ((s'.region r).net.closed ≠ (s.region r).net.closed)).foldl (fun t r =>
    (t.edgeCores r).foldl (fun t c =>
      (List.range 4).foldl (fun t d => match t.neighbor c d with
        | some n => t.seamCredits s n
        | none => t) (t.seamCredits s c)) t) s'
/-- A region's clock ratio limits and seam slack (R158, R356). -/
def State.regionLimits (s : State) (p r : Nat) : State :=
  let x := s.part p
  let (cap, floor) := x.clkLimits
  s.updRegion r fun g =>
    { g with clk := { g.clk with kCap := cap, kFloor := floor }
             net := { g.net with slack := leAt (x.sect 1) 0 2 } }
/-- Banks that go ON or OFF hold zeros afterwards: an OFF bank has lost its contents, and one that comes ON is zero-filled (R109).
`ch`: the banks that change. The I-store's are 24 and 25. -/
def Core.rebank (ch : Word) (k : Core) : Core :=
  let same := fun (a : Nat) => match bankBit a with
    | some b => !ch.getLsbD b
    | none => true
  { k with pad := k.pad.filter fun e => same e.1, shadow := k.shadow.filter fun e => same (64 * e.1)
           istore := k.istore.filter fun e => !ch.getLsbD (24 + e.1 / 2048) }
/-- Bank map of a configuration, in bits 25 to 0 of RGN_CL_PAD_BANKS (R110, R206). -/
def State.writeBanks (s : State) (p r : Nat) : State :=
  let map := leAt ((s.part p).sect 6) 0 4 % 2 ^ 26
  (List.range 16).foldl (fun s i =>
    let old := (s.cluster (16 * r + i)).banks
    let s := s.updCluster (16 * r + i) fun u => { u with banks := BitVec.ofNat 32 map ||| (u.banks &&& 0x4000000) }
    (List.range 72).foldl (fun s j => s.updCore (72 * (16 * r + i) + j) (Core.rebank (BitVec.ofNat 32 (old.toNat ^^^ map)))) s) s

/-- Write the core contents of a partition's configuration (R194 step 3, R220 step 3): programs, router sets, send
routes, BANK blocks, vacancy masks and credits; pads' regions empty. -/
def State.writeCores (s : State) (p : Nat) : State :=
  let x := s.part p
  let g := x.coreCfg
  let s := (List.range x.coreCount).foldl (fun s i => s.updCore (s.partCore p i) fun k => k.configure g i) s
  let s := (s.partRegions p).foldl (fun s r =>
    (List.range 16).foldl (fun s i =>
      let u := 16 * r + i
      let m := (List.range 8).foldl (fun a row => if (s.core (s.physOf u row 0)).vacant then a + 2 ^ row else a) 0
      s.updCluster u fun y => { y with vacant := BitVec.ofNat 8 m }) s) s
  let s := (s.partRegions p).foldl (fun s r => (s.liveCores r).foldl (fun s c =>
    let t := s.creditsOf c
    s.updCore c fun k => { k.emptied with creditInit := t, credit := t }) s) s
  s
/-- Apply the sections in force to the partition's cores, switches and banks (R220 step 3, R249). -/
def State.applySections (s : State) (p : Nat) : State :=
  let s := (s.partRegions p).foldl (fun s r => (s.writeBanks p r).regionLimits p r) s
  (s.writeCores p).writeGroups p

/-! ### Standby remap (R212, R387) -/

/-- KV pool and KV state areas of a region's logical cores, copied to another's (R251). -/
def State.copyKv (s : State) (p src dst : Nat) : State :=
  let areas := (s.part p).areas.filter fun a => decide (a.1 = 3) || decide (a.1 = 6)
  areas.foldl (fun s a => (List.range 1024).foldl (fun s i =>
    let f := s.physOf (16 * src + i / 64) (i % 64 / 8) (i % 8)
    let t := s.physOf (16 * dst + i / 64) (i % 64 / 8) (i % 8)
    (s.portCopy f t a.2.2.1 a.2.2.2).1) s) s
/-- The partition runs under a pairing (0: none): it owns the region that takes the block over, the sections of that
configuration are applied, and the KV areas follow it. -/
def State.remapTo (s : State) (p alt : Nat) : State :=
  let x := s.part p
  match x.pairs[(if alt = 0 then x.alt else alt) - 1]? with
  | none => s
  | some (a, b) =>
    let (src, dst) := if alt = 0 then (b, a) else (a, b)
    let s := (s.idleRegion src).updRegion src fun g => { g with part := none }
    let s := s.updRegion dst fun g => { g with part := some p }
    let s := s.updPart p fun x => { x with alt := alt, returnReq := false }
    (((s.writeRemap dst).setSeams).applySections p).copyKv p src dst
/-- The partition returns from its standby region: relaunched where the protected region is powered, else held (R387). -/
def State.standbyBack (s : State) (p : Nat) : State :=
  let s := s.holdPart p 2
  let s := s.remapTo p 0
  if (s.partRegions p).all fun r => pwrUp (s.region r).pwr.state then s.releasePart p else s

end Sys2Proof.Machine
end

