-- ==== Sys2Proof/Machine/Launch.lean ====
section
/-!
DEFINITION. Choosing and launching a step (R20, R238, R239, R241, R244, R247, R249, R264, R265, R279, R282 to R284, R294).
-/
namespace Sys2Proof.Machine

/-! ### Sorting -/

/-- Insert before the first element that must come later. -/
def insertBy {α : Type} (lt : α → α → Bool) (x : α) : List α → List α
  | [] => [x]
  | y :: r => if lt x y then x :: y :: r else y :: insertBy lt x r
/-- Stable sort. -/
def sortBy {α : Type} (lt : α → α → Bool) (l : List α) : List α := l.foldl (fun a x => insertBy lt x a) []
/-- Lexicographic order of keys. -/
def ltLex : List Nat → List Nat → Bool
  | x :: a, y :: b => decide (x < y) || (decide (x = y) && ltLex a b)
  | _, _ => false

/-! ### Fields of the serving registers (R303) -/

/-- SPIN_RUN; 0 is taken as 1. -/
def Part.spinRun (x : Part) : Nat := max 1 (x.sched.toNat % 256)
/-- LAT_CAP. -/
def Part.latCap (x : Part) : Nat := x.sched.toNat / 256 % 256
/-- LAT_INGEST in positions. -/
def Part.latIngest (x : Part) : Nat := 128 * (x.sched.toNat / 65536 % 8192)
/-- INGEST_WAIT and SPOOL_WAIT in ticks. -/
def Part.ingestWait (x : Part) : Nat := msecs (x.waits.toNat / 65536)
/-- See `Part.ingestWait`. -/
def Part.spoolWait (x : Part) : Nat := msecs (x.waits.toNat % 65536)

/-! ### Eligibility (R264, R279, R283, R284, R290) -/

/-- Frames of the flags of R276. -/
def Request.flag (r : Request) (i : Nat) : Bool := r.par.flags.testBit i
/-- The tenant's level allows steps (R284, R290). -/
def State.funded (s : State) (r : Request) : Bool :=
  let t := s.tenant r.par.tenant
  !t.limit || decide (t.level > 0)
/-- The request's adapter slot may serve it (R264, R284). -/
def State.adapterOk (s : State) (r : Request) : Bool :=
  decide (r.par.adapter = 0xFFFF) ||
    (let a := tget (s.part r.par.part).adapt ⟨0, 0⟩ r.par.adapter
     decide (a.state = 2) || (decide (a.state = 3) && r.boundSlot))
/-- Requests of the device in INGEST or SPIN (R279). -/
def State.activeCount (s : State) : Nat := (s.srv.reqs.filter fun x => x.2.active).length
/-- State slots of a partition in use: it has MAX_BATCH (R237, R279). -/
def State.slotsUsed (s : State) (p : Nat) : Nat := (s.partReqs p fun r => r.slot).length
/-- Requests the steps in flight of the other partitions hold (R7). -/
def State.othersInStep (s : State) (p : Nat) : Nat :=
  (partNums.filter fun q => decide (q ≠ p) && decide ((s.part q).phase ≠ .none)).foldl (fun n q => n + (s.part q).batchReqs) 0
/-- A QUEUED request may leave for INGEST (R276, R277, R279). -/
def State.mayIngest (s : State) (p i : Nat) : Bool :=
  let r := s.req i
  decide (r.turnGot = r.turnLen) && (r.slot || decide (s.slotsUsed p < (s.part p).maxBatch)) && decide (s.activeCount < 32768)
    && s.adapterOk r
/-- Eligible for spin (R284, R295): in SPIN, its re-shard complete, no pause due, funded, its adapter usable. -/
def State.spinOk (s : State) (r : Request) : Bool :=
  decide (r.state = .spin) && !r.reshard && !r.pausePend && s.funded r && s.adapterOk r
/-- Requests eligible for spin, in the order of R284. -/
def State.spinOrder (s : State) (p : Nat) : List Nat :=
  let l := s.partReqs p s.spinOk
  sortBy (fun a b => ltLex [(s.req a).par.prio, (s.req a).lastStep, a] [(s.req b).par.prio, (s.req b).lastStep, b]) l
/-- A priority-0 request is eligible for spin (R283, R284). -/
def State.latency (s : State) (p : Nat) : Bool := (s.partReqs p fun r => s.spinOk r && decide (r.par.prio = 0)).length > 0

/-! ### Shortage (R294) -/

/-- Begin to spool a PAUSED request's KV out (R296): the record is placed on a card, or the request stays as it is. -/
def State.beginSpool (s : State) (i : Nat) : State :=
  let r := s.req i
  if r.state = .paused ∧ r.spooling = none ∧ !r.flag 2 ∧ !r.spoolingIn then
    let (s, c) := s.kvAdmit i ((s.part r.par.part).recordBytes (r.pages.filter Page.resident).length r.pages.length)
    s.updReq i fun r => { r with spooling := c, retryAt := if c.isSome then 0 else s.clk.wtime + secs 1 }
  else s
/-- PAUSED requests that hold frames of some of the groups and may be spooled, oldest pause first (R294 step 3). -/
def State.spoolable (s : State) (p : Nat) (gs : List Nat) : List Nat :=
  let l := s.partReqs p fun r => decide (r.state = .paused) && !r.flag 2 && r.frames.any fun f => gs.contains f.2
  sortBy (fun a b => ltLex [(s.req a).pausedAt, a] [(s.req b).pausedAt, b]) l
/-- Step 3 of R294: with none of them on its way out, the oldest begins to spool. -/
def State.spoolFor (s : State) (p : Nat) (gs : List Nat) : State :=
  let l := s.spoolable p gs
  if l.any fun i => (s.req i).spooling.isSome then s
  else match l with
    | [] => s
    | i :: _ => s.beginSpool i
/-- A request begins to wait for a frame of one of the groups. -/
def State.shortWait (s : State) (p i : Nat) (gs : List Nat) : State :=
  (s.spoolFor p gs).updReq i fun r => { r with waitSince := some (r.waitSince.getD s.clk.wtime) }
/-- Step 4 of R294: the request stops at its last committed token with CACHE_FULL: FAILED before its first token, else
DONE. STOPS counts it. -/
def State.shortStop (s : State) (i : Nat) : State :=
  let r := s.req i
  let p := r.par.part
  let s := s.updPart p fun x => { x with stops := min 0xFFFF (x.stops + 1) }
  s.endReq i (if r.nextSeq = 0 then .failed else .done) stCacheFull

/-! ### Forming an ingest step (R236, R283) -/

/-- Give a request its blocks' frames and take them into the step: budget left, ring positions taken, items. -/
def State.takeBlocks (s : State) (p i : Nat) : Nat → Nat → List Nat → List BatchItem → State × Nat × List Nat × List BatchItem
  | 0, left, rings, items => (s, left, rings, items)
  | fuel + 1, left, rings, items =>
    let r := s.req i
    let pos := r.committed + ((items.filter fun x => decide (x.idx = i)).foldl (fun a x => a + x.w) 0)
    let n := min 128 (r.hist.length - pos)
    if n = 0 ∨ n > left then (s, left, rings, items)
    else
      let β := pos / 128
      let (b0, g, k) := s.blockHome p β
      if g = 0 ∨ rings.contains k then (s, left, rings, items)
      else
        let have_ := (r.pages[2 * β]?.any Page.resident) && (r.pages[2 * β + 1]?.any Page.resident)
        let got : Option State := if have_ then some s else
          (s.pickIngest p β).map fun (a, b) =>
            let s := (s.clearMass p a.1 a.2).clearMass p b.1 b.2
            s.updReq i fun r => Request.repin
              { r with slot := true, waitSince := none
                       pages := r.pages.take (2 * β) ++ [⟨a.1, a.2, 2, true, 0⟩, ⟨b.1, b.2, 2, true, 0⟩] }
        match got with
        | none => (s.shortWait p i ((List.range g).map (b0 + ·)), left, rings, items)
        | some s => s.takeBlocks p i fuel (left - n) (rings ++ [k]) (items ++ [⟨i, n, pos⟩])
/-- Requests with ingest to do, in the order of R283. -/
def State.ingestOrder (s : State) (p : Nat) : List Nat :=
  let key := fun i => [if (s.req i).state = .ingest then 0 else 1, (s.req i).order, i]
  let l := s.partReqs p fun r =>
    s.funded r && decide (r.committed < r.hist.length) && !r.reshard &&
      ((decide (r.state = .ingest) && decide (r.turnGot = r.turnLen) && s.adapterOk r) || decide (r.state = .queued))
  sortBy (fun a b => ltLex (key a) (key b)) l
/-- The blocks of an ingest step; no more requests join than the device may have active in step batches (R7, R283). -/
def State.formIngest (s : State) (p : Nat) : State × List BatchItem :=
  let x := s.part p
  let most := if s.latency p then min x.chunk x.latIngest else x.chunk
  let (s, _, _, items) := (s.ingestOrder p).foldl (fun (a : State × Nat × List Nat × List BatchItem) i =>
    let (s, left, rings, items) := a
    if s.othersInStep p + ((items.map (·.idx)).eraseDups).length ≥ 32768 then a
    else if ((s.req i).state = .ingest ∧ ((s.req i).slot ∨ s.slotsUsed p < (s.part p).maxBatch)) ∨ s.mayIngest p i then
      let n := items.length
      let (s', left', rings', items') := s.takeBlocks p i 4096 left rings items
      (if items'.length > n then s'.updReq i fun r => { r with state := .ingest, slot := true } else s', left', rings', items')
    else a) (s, most, [], [])
  (s, items)

/-! ### Forming a spin step (R239, R241, R244, R284, R294) -/

/-- Allocate the pages a request needs for its positions from t on, up to page n; where position t itself has no page, by
eviction if need be (R241, R244, R294). With a group that is short, none more. -/
def State.growPages (s : State) (p i t n : Nat) : Nat → State × Option Nat
  | 0 => (s, none)
  | fuel + 1 =>
    let r := s.req i
    if r.pages.length > n then (s, none)
    else
      let g := s.pageGroup p r.pages.length
      match s.pickFrame p g [] with
      | some f =>
        let s := (s.clearMass p f g).updReq i fun r => { r with pages := r.pages ++ [⟨f, g, 1, true, 0⟩] }
        State.growPages (s.updReq i Request.repin) p i t n fuel
      | none =>
        if r.flag 0 ∧ 64 * r.pages.length ≤ t then
          match s.evictChoice p i g with
          | (s, some k) =>
            let s := s.updPart p fun x => { x with kvEvict := satInc x.kvEvict }
            State.growPages (s.updReq i fun r => { r with pages := r.pages.modify k fun y => { y with state := 3, pin := false } }) p i t n fuel
          | (s, none) => (s, some g)
        else (s, some g)
/-- The resident spin pages of the step batch: (request index, page index, page). -/
def State.batchPages (s : State) (l : List Nat) : List (Nat × Nat × Page) :=
  l.flatMap fun i => ((s.req i).pages.zipIdx.filter fun x => decide (x.1.state = 1)).map fun (x, k) => (i, k, x)
/-- ROUNDS for a page count (R239). -/
def Part.rounds (x : Part) (v : Nat) : Nat :=
  match x.spinSeq.find? fun it => decide (it.sel = 2) with
  | some it => it.base + (v * it.mul + 65535) / 65536
  | none => 0
/-- The largest cell of a set of pages (R238). -/
def cellMost (ps : List Page) : Nat :=
  let keys := ps.map fun x => 32 * x.g + x.f % 32
  keys.foldl (fun a k => max a (keys.count k)) 0
/-- w_r: the positions a request verifies, within MAX_CONTEXT (R276, R287). -/
def State.spinWidth (s : State) (p i : Nat) : Nat :=
  let x := s.part p
  let r := s.req i
  min (max 1 (min r.par.width x.specWidth)) (max 1 (x.maxContext - (r.hist.length - 1)))
/-- Try to add a request to a spin batch: the state and the item, if it joins. -/
def State.addSpin (s : State) (p i : Nat) (items : List BatchItem) : State × Option BatchItem :=
  let x := s.part p
  let r := s.req i
  let t := r.hist.length - 1
  let w := s.spinWidth p i
  let need := (t + w - 1) / 64
  let (s', short) := s.growPages p i t need (need + r.pages.length + 66)
  let (s', w', short) : State × Nat × Option Nat := match short with
    | none => (s', w, none)
    | some g =>
      let fit := 64 * (s'.req i).pages.length - t
      if 0 < fit then
        (s.updPart p fun x => { x with narrowed := min 0xFFFF (x.narrowed + 1) }, fit, none)
      else (s', w, some g)
  match short with
  | some g =>
    if (s'.spoolable p [g]).isEmpty then (s'.shortStop i, none) else (s'.shortWait p i [g], none)
  | none =>
    let ps := (s'.batchPages (items.map (·.idx) ++ [i])).map (·.2.2)
    if cellMost ps > x.rounds ps.length then
      (s.updPart p fun x => { x with kvDefer := satInc x.kvDefer }, none)
    else (s'.updReq i fun r => { r with waitSince := none }, some ⟨i, w', t⟩)
/-- Order a batch by adapter slot (R264, R284). -/
def State.byAdapter (s : State) (items : List BatchItem) : List BatchItem :=
  sortBy (fun a b => decide ((s.req a.idx).par.adapter < (s.req b.idx).par.adapter)) items
/-- Give the pages that a batch has allocated since `s0` their frames anew, in ascending batch index and then page index (R241). -/
def State.reframe (s s0 : State) (p : Nat) (items : List BatchItem) : State :=
  let n0 := fun i => (s0.req i).pages.length
  let new := items.flatMap fun it => ((s.req it.idx).pages.zipIdx.filter fun x => decide (n0 it.idx ≤ x.2)).map fun x => (it.idx, x.2, x.1.g)
  let bare := (items.map (·.idx)).foldl (fun s i => s.updReq i fun r => { r with pages := r.pages.take (n0 i) }) s
  new.foldl (fun s (i, _, g) => match s.pickFrame p g [] with
    | some f => ((s.clearMass p f g).updReq i fun r => { r with pages := r.pages ++ [⟨f, g, 1, true, 0⟩] }).updReq i Request.repin
    | none => s) bare
/-- The spin batch: requests are added while their widths stay within the limit and the device's requests active in step batches within
32,768 (R7); its new frames are chosen in the order of its batch
indices, where no cell then exceeds ROUNDS (DESIGN CHOICE, log 224). -/
def State.formSpin (s : State) (p : Nat) : State × List BatchItem :=
  let x := s.part p
  let s0 := s
  let cap := if s.latency p then min x.maxBatch x.latCap else x.maxBatch
  let (s, items, _) := (s.spinOrder p).foldl (fun (a : State × List BatchItem × Bool) i =>
    let (s, items, full) := a
    let used := items.foldl (fun n y => n + y.w) 0
    if full then a
    else if used + s.spinWidth p i > cap ∨ s.othersInStep p + items.length ≥ 32768 then (s, items, true)
    else match s.addSpin p i items with
      | (s, some it) => (s, items ++ [it], false)
      | (s, none) => (s, items, false)) (s, [], false)
  let items := s.byAdapter items
  let s' := s.reframe s0 p items
  let ps := (s'.batchPages (items.map (·.idx))).map (·.2.2)
  (if cellMost ps ≤ x.rounds ps.length then s' else s, items)

/-! ### The re-shard's frames (R247 step 2) -/

/-- Steps in which the cores of every region move a request's half-slices, 8 out and 8 in a step (R247): a block costs each core of
its groups ceil(KV_LAYERS ÷ 32) half-slices, or twice that where both its frames lie in one group. -/
def State.shardSteps (s : State) (p : Nat) (pages : List Page) : Nat :=
  let m := ((s.part p).kvLayers + 31) / 32
  let n := (s.ring p).length
  let cost := fun β => match (pages[2 * β]?), (pages[2 * β + 1]?) with
    | some a, some b => if a.state ≠ 2 then 0 else if a.g = b.g then 2 * m else m
    | _, _ => 0
  ((List.range n).map fun k =>
    (((List.range ((pages.length + 1) / 2)).filter fun β => decide (β % n = k)).foldl (fun a β => a + cost β) 0 + 7) / 8).foldl max 0
/-- Allocate the spin frames of the ingest pages of every request that enters re-shard; a shortage waits under R294. -/
def State.allocReshard (s : State) (p : Nat) : State :=
  (s.partReqs p fun r => r.reshard && r.target.isEmpty).foldl (fun s i =>
    let moved := ((s.req i).pages.zipIdx.filter fun x => decide (x.1.state = 2)).map (·.2)
    let got := moved.foldl (fun (a : Except Nat (List (Nat × Nat))) k =>
      match a with
      | .error g => .error g
      | .ok l =>
        let g := s.pageGroup p k
        match s.pickFrame p g l with
        | some f => .ok (l ++ [(f, g)])
        | none => .error g) (.ok [])
    match got with
    | .ok l =>
      let s := l.foldl (fun s x => s.clearMass p x.1 x.2) s
      (s.updPart p fun x => { x with chosen := x.chosen ++ l }).updReq i fun r => { r with target := l, waitSince := none, shardLeft := s.shardSteps p r.pages }
    | .error g => s.shortWait p i [g]) s

/-! ### Lists (R238, R265) -/

/-- Send bytes to the vault of a core, from a burst on and padded to whole bursts, as acknowledged VWRT packets of the partition from
the serving engine, 64 bursts to a packet (R167, R168, R177). -/
def State.sendBytes (s : State) (p c burst : Nat) (bs : List Byte) : State :=
  let n := (bs.length + 63) / 64
  let ls := chunks 64 n (bs ++ List.replicate (64 * n - bs.length) 0)
  let dest := ((s.logXY c).map fun x => x.1 + 256 * x.2).getD 0
  (List.range ((n + 63) / 64)).foldl (fun s k => s.sendAcked 20256 4 2 dest p false (burst + 64 * k) ((ls.drop (64 * k)).take 64)) s
/-- First burst of the working area plus an offset. -/
def Part.working (x : Part) (off : Nat) : Option Nat := (x.area 5 0).map fun a => a.1 + off
/-- A work list entry (R238). -/
def workEntry (f bidx fill new pidx : Nat) : Nat :=
  f % 2 ^ 12 + bidx % 2 ^ 15 * 2 ^ 12 + fill % 128 * 2 ^ 28 + new % 16 * 2 ^ 35 + pidx % 2 ^ 14 * 2 ^ 39
/-- Work lists of a spin step, sent to every core of every group (R238). -/
def State.writeWork (s : State) (p : Nat) (items : List BatchItem) (rounds : Nat) : State :=
  let tune := decide ((s.part p).tuneRun ≠ 0)
  match (s.part p).working Config.workListBurst with
  | none => s
  | some b =>
    let ps := (items.zipIdx.flatMap fun (it, bi) => (s.batchPages [it.idx]).map fun x => (it, bi, x.2.1, x.2.2))
    (s.groups p).zipIdx.foldl (fun s (us, g) =>
      let mine := sortBy (fun a b => ltLex [a.2.2.2.f % 32, a.2.2.1] [b.2.2.2.f % 32, b.2.2.1]) (ps.filter fun x => decide (x.2.2.2.g = g))
      let entry := fun (x : BatchItem × Nat × Nat × Page) =>
        let lo := 64 * x.2.2.1
        let new := if tune then 0 else min (lo + 64) (x.1.pos + x.1.w) - max lo x.1.pos
        leBytes 8 (workEntry x.2.2.2.f x.2.1 x.2.2.2.fill new x.2.2.1)
      let bs := leBytes 4 mine.length ++ leBytes 2 rounds ++ leBytes 1 (s.part p).stepEpoch ++ List.replicate 57 0 ++ mine.flatMap entry
      (us.flatMap fun u => (List.range 64).map (s.clusterCore u)).foldl (fun s c =>
        s.sendBytes p c b bs) s) s
/-- The adapter list of a step, sent to every non-vacant core (R265). -/
def State.writeAdapters (s : State) (p : Nat) (items : List BatchItem) : State :=
  let x := s.part p
  if x.adaptSlots = 0 then s
  else match x.working Config.adapterListBurst with
    | none => s
    | some b =>
      let firsts := items.foldl (fun (a : List (Nat × Nat × Nat) × Nat) it => (a.1 ++ [((s.req it.idx).par.adapter, a.2, it.w)], a.2 + it.w)) ([], 0)
      let ent := fun k =>
        let mine := firsts.1.filter fun y => decide (y.1 = k)
        (((mine.head?).map (·.2.1)).getD 0, mine.foldl (fun a y => a + y.2.2) 0)
      let es := (List.range x.adaptSlots).map ent
      let bs := leBytes 4 firsts.2 ++ leBytes 1 x.stepEpoch ++ leBytes 1 0 ++ leBytes 2 (es.filter fun e => decide (e.2 ≠ 0)).length
        ++ List.replicate 56 0 ++ es.flatMap fun e => leBytes 2 e.1 ++ leBytes 2 e.2
      ((s.partRegions p).flatMap s.liveCores).foldl (fun s c => s.sendBytes p c b bs) s

/-! ### STEP_LAUNCH -/

/-- Launch a step with a batch: its run starts once its lists are in the vaults (R238, R265). -/
def State.launch (s : State) (p : Nat) (ingest : Bool) (items : List BatchItem) (tune : Nat) : State :=
  let items := s.byAdapter items
  let reqs := (items.map (·.idx)).eraseDups
  let v := if ingest then (reqs.flatMap fun i => (s.req i).pages.filter Page.resident).length else (s.batchPages reqs).length
  let cells := cellMost ((s.batchPages reqs).map (·.2.2))
  let rounds := (s.part p).rounds v
  let s := s.updPart p fun x =>
    { x with step := (x.step + 1) % 2 ^ 32, batch := items.foldl (fun a y => a + y.w) 0, batchReqs := reqs.length, ingest := ingest
             items := items, kvPages := v, tuneRun := tune, runNo := 0, act8 := false, reruns := 0, wdogs := 0
             chosen := [], stepEpoch := x.epoch, exps := x.exps.map ExpEntry.fresh
             kvRounds := if ingest then x.kvRounds else rounds, kvLoad := if ingest then x.kvLoad else cells
             spins := if ingest || decide (tune ≠ 0) then 0 else x.spins + 1 }
  let s := reqs.foldl (fun s i => s.updReq i fun r => { r with lastStep := (s.part p).step }) s
  let s := if ingest then s else s.writeWork p items rounds
  (s.writeAdapters p items).startOrWait p
/-- The tuning sections, or the serving sections again, are written (R249): the partition is READY again. -/
def State.applyTuning (s : State) (p : Nat) (tune : Bool) : State :=
  let s := (s.updPart p fun x => { x with tuned := tune, applying := 0 }).applySections p
  if (s.part p).held = 3 then s.releasePart p else s
/-- Tuning sections (2), or the serving sections again (3), begin to be applied: APPLYING, the requests held (R249, R300). -/
def State.beginTuning (s : State) (p n : Nat) : State := (s.updPart p fun x => { x with applying := n }).holdPart p 3
/-- A serving step is launched, once the serving configuration is applied again (R249): `ready` is the state with its batch formed. -/
def State.serve (s ready : State) (p : Nat) (ingest : Bool) (items : List BatchItem) : State :=
  if (s.part p).tuned then s.beginTuning p 3
  else (ready.updPart p fun x => if ingest then { x with tuneTurn := false } else x).launch p ingest items 0
/-- The cores of a partition may start: it is not held or under repair, and every region runs, none ordered off for heat
(R282, R383, R386). -/
def State.mayRun (s : State) (p : Nat) : Bool :=
  let rs := s.partRegions p
  decide ((s.part p).held = 0) && (s.part p).repair.isNone && !rs.isEmpty
    && rs.all fun r => decide ((s.region r).pwr.state = 3) && decide ((s.region r).clk.k > 0) && !(s.region r).thm.hot
/-- The step may be launched: READY, nothing in flight, held or pending, and every region running, none ordered off for
heat (R220, R268, R282, R383, R386). -/
def State.mayLaunch (s : State) (p : Nat) : Bool :=
  let x := s.part p
  decide (x.state = .ready) && decide (x.phase = .none) && decide (x.applying = 0) && decide (x.pend = []) && !decide (x.doff.state = 2) && s.mayRun p
/-- A step that waits for its lists: packets of them that failed are sent again (DESIGN CHOICE, log 223: R177 reports the failure to
the serving engine, and no rule says what it does), and with all acknowledged the run starts (R238, R265). -/
def State.listsDue (s : State) (p : Nat) : State :=
  let mine := s.tree.failed.filter fun a => decide (a.part = p) && decide (a.typ = 4) && !a.sys
  if mine ≠ [] then
    mine.foldl (fun s a =>
      let a' := { a with sends := 0, due := s.clk.wtime + ackTicks }
      (s.updTree fun t => { t with failed := t.failed.erase a, acks := t.acks ++ [a'] }).putPacket a') s
  else if s.listsOut p then s
  else if s.mayRun p then s.startRun p else s
/-- The examples of a tuning step as its batch: their whole histories (R249, R266), and how many are held out because a cell of the
backward step's work lists would hold more than ROUNDS entries (R239). -/
def State.tuneItems (s : State) (p : Nat) (t : TuneReq) : List BatchItem × Nat :=
  t.reqs.foldl (fun a i =>
    let ps := (s.batchPages (a.1.map (·.idx) ++ [i])).map (·.2.2)
    if cellMost ps > (s.part p).rounds ps.length then (a.1, a.2 + 1) else (a.1 ++ [⟨i, (s.req i).hist.length, 0⟩], a.2)) ([], 0)

/-- STEP_LAUNCH: a step that waits for its lists goes on, and tuning or serving sections that are being applied have been written. A
RETURN ordered from the standby region comes first (R387); then uncorrectable bursts are restored (R415), pages of a re-shard allocated
(R247), the program and the batch chosen (R282 to R284), and the run launched (R79). -/
def execStepLaunch (p : Nat) (s : State) : Out :=
  if p < 16 then
    if (s.part p).phase = .lists then .next (s.listsDue p)
    else if (s.part p).applying > 1 ∧ (s.part p).state = .ready then .next (s.applyTuning p (decide ((s.part p).applying = 2)))
    else if !s.mayLaunch p then .next s
    else if (s.part p).returnReq ∧ (s.part p).alt ≠ 0 then .next (s.standbyBack p)
    else
      let s := s.restoreBursts p
      if (s.part p).state ≠ .ready then .next s
      else
        let s := if (s.part p).erefPend then
            s.updPart p fun x => { x with exps := x.exps.map ExpEntry.restore, erefPend := false } else s
        let need := (s.part p).lullNeed
        let s := if need > 0 then
            (s.raise (s.partEv p 0x24 (sp [(0, 1, 2), (4, 4, need / 1000000)]))).updPart p fun x => { x with lullNeed := 0 } else s
        let x := s.part p
        match x.tunes with
        | t :: rest =>
          if x.tuneRun = 1 then
            -- the backward step of a tuning turn
            let tunes := if t.steps ≤ 1 then rest else { t with steps := t.steps - 1 } :: rest
            let (items, out) := s.tuneItems p t
            .next ((s.updPart p fun x => { x with tunes := tunes, kvDefer := satAdd x.kvDefer out }).launch p false items 2)
          else
            let s := s.allocReshard p
            let (si, ing) := s.formIngest p
            let (ss, spin) := s.formSpin p
            let turn := decide (spin = []) || decide (x.spins ≥ x.spinRun)
            if turn && (!x.tuneTurn || decide (ing = [])) then
              if !x.tuned then .next (s.beginTuning p 2)
              else .next ((s.updPart p fun x => { x with tuneTurn := true }).launch p true (s.tuneItems p t).1 1)
            else if turn && decide (ing ≠ []) then .next (s.serve si p true ing)
            else .next (s.serve ss p false spin)
        | [] =>
          let s := s.allocReshard p
          let (si, ing) := s.formIngest p
          let (ss, spin) := s.formSpin p
          if ing ≠ [] ∧ (spin = [] ∨ x.spins ≥ x.spinRun) then .next (s.serve si p true ing)
          else if spin ≠ [] ∨ !(s.partReqs p fun r => r.reshard).isEmpty then .next (s.serve ss p false spin)
          else .next (ss.formIngest p).1
  else .fault .noSuchUnit

end Sys2Proof.Machine
end

