-- ==== Sys2Proof/Machine/Sample.lean ====
section
/-!
DEFINITION. Sampling and speculative verification (R285 to R288), and the reference update (R233).
-/
namespace Sys2Proof.Machine

/-- A weighted token: number and weight of the distribution. -/
abbrev Wt := Nat × Nat
/-- Sum of weights. -/
def wSum (l : List Wt) : Nat := l.foldl (fun a x => a + x.2) 0
/-- Weight of a token, 0 when it is not kept. -/
def wOf (l : List Wt) (d : Nat) : Nat := ((l.find? fun x => decide (x.1 = d)).map (·.2)).getD 0

/-- One FP32 value lies above another; NaN lies above nothing. -/
def fAbove (x y : Word) : Bool :=
  match fOrd x y with
  | some o => decide (o > 0)
  | none => decide (fOrd x x = some 0) && decide (fOrd y y ≠ some 0)
/-- Greedy: the argmax, ties to the lowest token number (R285). -/
def argmax (z : List Word) : Nat :=
  (z.zipIdx.foldl (fun (a : Option (Word × Nat)) x => match a with
    | none => some x
    | some b => if fAbove x.1 b.1 then some x else some b) none).elim 0 (·.2)
/-- TEMP 0: greedy. -/
def greedy (q : ReqParam) : Bool := decide (q.temp % 0x8000 = 0)

/-- Softmax weight of a logit z against the largest one, exp((z − best) ÷ TEMP) in 2⁻⁶⁴: the candidate of `Config` where it lies within
2⁻²⁰ of it, else the exact value cut off (R285; DESIGN CHOICE, log 227: the spec bounds no precision). A weight against or of an
infinity or NaN is the candidate. -/
def softWeight (temp : Nat) (best z : Word) : Nat :=
  let c := Config.softWeight temp best z
  match fDec best, fDec z, fDec (bfToF temp) with
  | .fin nb mb eb, .fin nz mz ez, .fin _ mt et =>
    let t := toFx false mt et
    let x := (toFx nz mz ez - toFx nb mb eb) * fxOne / max 1 t
    let (y, k) := fxExp x
    let r := if k < -200 then 0 else (y * 2 ^ (k + 200).toNat / 2 ^ 336).toNat
    if max c r - min c r ≤ r / 2 ^ 20 then c else r
  | _, _, _ => c
/-- The smallest leading part whose mass reaches TOP_P, a BF16 value m × 2^(−sh) of the total (R285). -/
def topP (m sh total : Nat) : Nat → List Wt → List Wt
  | _, [] => []
  | acc, x :: r => if (acc + x.2) * 2 ^ sh ≥ m * total then [x] else x :: topP m sh total (acc + x.2) r
/-- The kept set of a distribution, in the order of R285, each token with its softmax weight. -/
def kept (q : ReqParam) (z : List Word) : List Wt :=
  let order := sortBy (fun (a b : Word × Nat) => fAbove a.1 b.1) z.zipIdx
  let order := if q.topK = 0 then order else order.take q.topK
  let best := (order.head?.map (·.1)).getD 0
  let ws := order.map fun x => (x.2, softWeight q.temp best x.1)
  let e := q.topP / 128 % 256
  let m := if e = 0 then q.topP % 128 else 128 + q.topP % 128
  topP m (134 - max 1 e) (wSum ws) 0 ws
/-- The sampling distribution: a point at the argmax under greedy. -/
def dist (q : ReqParam) (z : List Word) : List Wt := if greedy q then [(argmax z, 1)] else kept q z

/-- The 53 bits of u: SEED, position, index (R286). -/
def draw53 (seed pos idx : Nat) : Nat :=
  leNat (shake256 8 (beBytes 8 seed ++ beBytes 4 pos ++ beBytes 4 idx)).reverse / 2 ^ 11
/-- The first token in ascending number whose cumulative probability exceeds u, else the last (R286). -/
def pickTok (u total : Nat) : Nat → Nat → List Wt → Nat
  | _, last, [] => last
  | acc, _, (t, w) :: r => if (acc + w) * 2 ^ 53 > u * total then t else pickTok u total (acc + w) t r
/-- Draw a token from a distribution. -/
def drawTok (u : Nat) (l : List Wt) : Nat :=
  let l := sortBy (fun (a b : Wt) => decide (a.1 < b.1)) l
  pickTok u (wSum l) 0 0 l
/-- The residual distribution max(0, p − q), renormalised (R287). -/
def residual (p q : List Wt) : List Wt := p.map fun x => (x.1, x.2 * wSum q - wOf q x.1 * wSum p)
/-- A draft d is accepted: u < p(d) ÷ q(d), and under greedy d = argmax p (R286, R287). -/
def accepts (q : ReqParam) (u d : Nat) (p dq : List Wt) : Bool :=
  if greedy q then decide (wOf p d ≠ 0)
  else decide (u * wOf dq d * wSum p < wOf p d * wSum dq * 2 ^ 53)

/-- Tokens a step yields (R287), each with its weight and total under the main model's distribution, and the drafts
accepted. Position t + 1 is the first drawn. -/
def verify (q : ReqParam) (t : Nat) : List (List Word) → List (List Word) → List (Nat × Nat × Nat) × Nat
  | [], _ => ([], 0)
  | z :: zs, ds =>
    let p := dist q z
    match ds, zs with
    | d :: ds', _ :: _ =>
      let dq := dist q d
      let tok := if greedy q then argmax d else drawTok (draw53 q.seed (t + 1) 0) dq
      if accepts q (draw53 q.seed (t + 1) 1) tok p dq then
        let (l, n) := verify q (t + 1) zs ds'
        ((tok, wOf p tok, wSum p) :: l, n + 1)
      else
        let r := if greedy q then argmax z else drawTok (draw53 q.seed (t + 1) 2) (residual p dq)
        ([(r, wOf p r, wSum p)], 0)
    | _, _ =>
      let r := if greedy q then argmax z else drawTok (draw53 q.seed (t + 1) 2) p
      ([(r, wOf p r, wSum p)], 0)

/-- An unused STOP entry. -/
def stopNone : Nat := 0xFFFFFFFF
/-- Tokens up to and with the first that stops the turn (R288); whether it stopped, and by a STOP token. -/
def stopAt (q : ReqParam) (new : Nat) : List (Nat × Nat × Nat) → List (Nat × Nat × Nat) × Bool × Bool
  | [] => ([], false, false)
  | x :: r =>
    let byTok := q.stop.contains x.1 && decide (x.1 ≠ stopNone)
    if byTok then ([x], true, true)
    else if new + 1 ≥ q.maxNew then ([x], true, false)
    else
      let (l, a, b) := stopAt q (new + 1) r
      (x :: l, a, b)

/-- 0.6931 as FP32. -/
def ln2ish : Word := 0x3F316F00
/-- ρ raised for a clamp, ρ + 64 + E ÷ c, or lowered by 64 for a row with l = 0 (R232). -/
def movedRef (rho : Word) (x : RhoRaise) : Word :=
  if x.c = 0 then fSub rho 0x42800000 else fAdd (fAdd rho 0x42800000) (fMul x.e (fRcp x.c))
/-- References that a run raised stand though it is not committed (R232, R251). -/
def State.raiseRefs (s : State) (p : Nat) (l : List RhoRaise) : State :=
  l.foldl (fun s x =>
    if (s.part p).items.any fun it => decide (it.idx = x.idx) then
      s.updReq x.idx fun r => { r with rho := tset r.rho 0 x.row (movedRef (tget r.rho 0 x.row) x) }
    else s) s
/-- ρ_used + 0.6931 × e_l (R233): e_l is the unbiased exponent field of l. -/
def newRef (base l : Word) : Word :=
  let e : Int := (l.toNat / 2 ^ 23 % 256 : Nat) - 127
  fAdd base (fMul ln2ish (fEnc (decide (e < 0)) e.natAbs 0))

end Sys2Proof.Machine
end

