-- ==== Sys2Proof/Machine/Commit.lean ====
section
/-!
DEFINITION. The commit of a step (R21, R65, R70, R232, R233, R241, R247, R266, R268, R285 to R293, R299), replays (R67 to
R69) and the end of a re-shard (R247).
-/
namespace Sys2Proof.Machine

/-- Charge a tenant for tokens delivered and ingest positions (R290): ceil(P × PROMPT_WT ÷ 256) tokens for P. -/
def State.chargeTenant (s : State) (t toks pos : Nat) : State :=
  s.updTenant t fun x =>
    let n := toks + (pos * x.promptWt + 255) / 256
    { x with level := x.level - (256 * n : Nat), used := satAdd x.used n }
/-- Merge table entries into a table. -/
def mergeTab {α : Type} [DecidableEq α] (d : α) (t : Table α) (l : List (Nat × α)) : Table α := l.foldl (fun t x => tset t d x.1 x.2) t

/-- The chunk of a commit that yields tokens (R291). -/
def commitChunk (r : Request) (step epoch : Nat) (toks : List (Nat × Nat × Nat)) (fin turn stop : Bool) : Chunk :=
  { seq := r.nextSeq, step := step, pos := r.hist.length, count := toks.length, epoch := epoch
    flags := fin.toNat + 2 * turn.toNat + 4 * r.reingest.toNat + 8 * stop.toNat, status := stOk
    tokens := toks.map (·.1)
    logp := if r.flag 4 then toks.map fun x => if greedy r.par then 0 else Config.logRatio x.2.1 x.2.2 else [] }

/-- A request's turn yields tokens at a commit: history, chunk and stop (R281, R287, R288, R291). `ingest` says the step
was its last ingest step, after which it re-shards (R247). -/
def State.yield (s : State) (i : Nat) (toks : List (Nat × Nat × Nat)) (ingest : Bool) : State × Chunk :=
  let r := s.req i
  let x := s.part r.par.part
  let (l, stop, byTok) := stopAt r.par r.newTok toks
  let hold := r.flag 1
  let c := commitChunk r x.step x.stepEpoch l (stop && !hold) (stop && hold) byTok
  let now := s.clk.wtime
  let s := s.updReq i fun r =>
    { (r.addChunk c) with hist := r.hist ++ l.map (·.1), newTok := r.newTok + l.length, positions := r.hist.length + l.length }
  let s := s.histWrite i
  let s := if stop && !hold then
      (s.kvDrop i).updReq i fun r => { r.freeKv with state := .done, endedAt := now, kvCard := none, pausePend := false }
    else if stop && ingest then s.updReq i fun r => { r with pausePend := true, reshard := true }
    else if ingest then s.updReq i fun r => { r with reshard := true }
    else if (stop || (s.req i).pausePend) && decide ((s.req i).state = .held) then s.updReq i fun r => { r with pausePend := true }
    else if stop || (s.req i).pausePend then
      s.updReq i fun r => { r with state := .paused, pausePend := false, pausedAt := now, idleSince := now }
    else s
  (s, c)

/-- Commit one item of an ingest step (R21, R65, R233, R241, R290). -/
def State.commitIngest (s : State) (it : BatchItem) (ci : CommitItem) : State × List (Nat × Chunk) :=
  let i := it.idx
  let r := s.req i
  let done := it.pos + it.w
  let charge := if r.reingest then done - max it.pos r.positions else it.w
  let s := s.chargeTenant r.par.tenant 0 charge
  let s := s.updReq i fun r =>
    { r with committed := max r.committed done, positions := max r.positions done }
  let s := s.updReq i fun r => r.refill
  if done < r.hist.length then (s.histWrite i, [])
  else
    let s := s.updReq i fun r =>
      { r with resid := mergeTab [] r.resid (ci.resid.headD []), rho := mergeTab 0 r.rho ((ci.rows.headD []).map fun y => (y.1, newRef y.2.1 y.2.2)) }
    let (toks, _) := verify r.par (r.hist.length - 1) (ci.main.take 1) []
    let (s, c) := s.yield i toks true
    let s := s.chargeTenant r.par.tenant c.count 0
    (s.updReq i fun r => if r.used && !r.state.isOver then r.repin else r, [(i, c)])

/-- Commit one item of a spin step (R65, R233, R241, R287, R288). -/
def State.commitSpin (s : State) (it : BatchItem) (ci : CommitItem) : State × List (Nat × Chunk) × Nat :=
  let i := it.idx
  let r := s.req i
  let (toks, acc) := verify r.par it.pos (ci.main.take it.w) ci.draft
  let (l, _, _) := stopAt r.par r.newTok toks
  let a := l.length
  let s := s.updReq i fun r =>
    { r with committed := it.pos + a, resid := mergeTab [] r.resid (ci.resid.getD (a - 1) [])
             rho := mergeTab 0 r.rho ((ci.rows.getD (a - 1) []).map fun y => (y.1, newRef (tget r.rho 0 y.1) y.2.2)) }
  let s := s.updReq i fun r => r.refill.repin
  let (s, c) := s.yield i toks false
  (s.chargeTenant r.par.tenant a 0, [(i, c)], acc)

/-- The run has ended everywhere with nothing that keeps the step from committing (R66, R108, R122). -/
def State.mayCommit (s : State) (p : Nat) : Bool :=
  let x := s.part p
  decide (x.phase = .running) && x.faults.isEmpty && (s.runners p).all fun c => decide ((s.core c).run = .ended)
/-- The operands fit the step batch: a distribution for each position, and one for each draft. -/
def fits (ingest : Bool) (it : BatchItem) (ci : CommitItem) : Bool :=
  if ingest then decide (ci.main.length = 1)
  else decide (ci.main.length = it.w) && decide (ci.draft.length + 1 = it.w)

/-- A step has moved half-slices of each request in re-shard; those moved again follow in the next one (R247, R251). -/
def State.shardStep (s : State) (p : Nat) : State :=
  let again := min 1 (s.part p).again
  (s.partReqs p fun r => r.reshard && !r.target.isEmpty).foldl (fun s i =>
    s.updReq i fun r => { r with shardLeft := max again (r.shardLeft - 1) }) s
/-- The step in flight is over. -/
def State.stepOver (s : State) (p : Nat) : State :=
  let s := (s.shardStep p).updPart p fun x =>
    { x with again := 0, phase := .none, items := [], faults := [], reruns := 0, wdogs := 0, freezeAt := none, act8 := false, runNo := 0 }
  ((s.oldEpochEnds p).settleHold p).vaultHealth p

/-- A burst of a core lies in the tuning slot (R263, R266). -/
def State.inTuneSlot (s : State) (p c b : Nat) : Bool :=
  let x := s.part p
  match x.tuneSlot, s.coreIndex p c with
  | some k, some i => decide (s.partOf c = some p) && x.adaptCore k i && decide (x.adapterBase k 0 ≤ b)
      && decide (b < x.adapterBase k (((x.area 2 0).getD (0, 0)).2 / max 1 (x.adaptSlots / 256)))
  | _, _ => false
/-- STEP_COMMIT. `l` gives each item of the batch what it yielded; `fac` the factor updates of a tuning step's commit
(core, burst, 64 bytes; R266). -/
def execStepCommit (p : Nat) (l : List CommitItem) (fac : List (Nat × Nat × List Byte)) (s : State) : Out :=
  if p < 16 then
    let x := s.part p
    if !s.mayCommit p then .next s
    else if x.tuneRun = 1 then
      .next ((s.updPart p fun x => { x with exps := x.exps.map (ExpEntry.commit x.decayEn) }).stepOver p)
    else if x.tuneRun = 2 then
      let s := fac.foldl (fun s (c, b, bs) => if s.inTuneSlot p c b then s.setVault c ((s.vault c).write b bs) else s) s
      let s := s.updPart p fun x => { x with tuneRun := 0, exps := x.exps.map (ExpEntry.commit x.decayEn) }
      .next (s.stepOver p)
    else if l.length ≠ x.items.length ∨ !((x.items.zip l).all fun y => fits x.ingest y.1 y.2) then .next s
    else
      let (s, cs, acc) := (x.items.zip l).foldl (fun (a : State × List (Nat × Chunk) × Nat) y =>
        let (s, cs, acc) := a
        if x.ingest then
          let (s, c) := s.commitIngest y.1 y.2
          (s, cs ++ c, acc)
        else
          let (s, c, n) := s.commitSpin y.1 y.2
          (s, cs ++ c, acc + n)) (s, [], 0)
      let prop := if x.ingest then 0 else x.items.foldl (fun n it => n + (it.w - 1)) 0
      let toks := cs.foldl (fun n c => n + c.2.count) 0
      let n8 := fun (f : CommitItem → Nat) => if x.act8 then l.foldl (fun a y => a + f y) 0 else 0
      let s := s.updPart p fun x =>
        { x with tokens := satAdd x.tokens toks, specAcc := min 0xFFFF (x.specAcc + acc), specProp := min 0xFFFF (x.specProp + prop)
                 kvClamp := satAdd x.kvClamp (n8 (·.clamped)), kvZero := satAdd x.kvZero (n8 (·.zeroed))
                 exps := x.exps.map (ExpEntry.commit x.decayEn) }
      let cs := sortBy (fun (a b : Nat × Chunk) => decide (a.1 < b.1)) cs
      let s := s.pushChunks p cs
      let gone := ((x.items.map (·.idx)).eraseDups).filter fun i => (s.req i).cancelPend && (s.req i).live
      let s := s.stepOver p
      let s := s.endMany (gone.map fun i => (i, ReqState.cancelled, stAborted))
      .next (s.adaptSettle p)
  else .fault .noSuchUnit

/-- REPLAY_RESTART: the step flagged by its flag word runs again from its first layer (R67, R68), the fourth time on
the 8-bit activation path; that restart counts as a replay too (DEDUCED, log 225). `raised`: references that the flagged run raised
(R232). -/
def execReplayRestart (p : Nat) (s : State) (raised : List RhoRaise := []) : Out :=
  if p < 16 then
    let x := s.part p
    if x.phase ≠ .replay ∨ x.faults ≠ [] ∨ x.repair.isSome then .next s
    else
      let s := (s.raiseRefs p raised).updPart p fun x =>
        { x with runNo := x.runNo + 1, act8 := decide (x.runNo ≥ 2), replays := satInc x.replays
                 fFall := x.fFall || decide (x.runNo ≥ 2), fallbacks := if x.runNo ≥ 2 then satInc x.fallbacks else x.fallbacks }
      .next (s.rerun p)
  else .fault .noSuchUnit

/-- Pages in the ingest layout take their spin frames, in page order; the others stay (R247 step 4). -/
def moveIngest : List (Nat × Nat) → List Page → List Page
  | _, [] => []
  | ts, x :: r =>
    match ts with
    | t :: ts' => if x.state = 2 then { x with f := t.1, g := t.2, state := 1 } :: moveIngest ts' r else x :: moveIngest ts r
    | [] => x :: r
/-- RESHARD_COMPLETE: every half-slice of a request has moved (R247 step 4): each page lies in its spin frame, the
ingest frames are free, PIN stays where R243 holds, and the request enters SPIN, or PAUSED if a pause is pending; one that is HELD does
so when the hold ends (R281). -/
def execReshardComplete (i : Nat) (s : State) : Out :=
  let r := s.req i
  if i < 2 ^ 17 then
    if !r.live || !r.reshard || decide (r.shardLeft > 0) || r.target.isEmpty || !decide (r.target.length = (r.pages.filter fun g => decide (g.state = 2)).length) then .next s
    else
      let pages := moveIngest r.target r.pages
      .next (s.updReq i fun r =>
        (({ r with pages := pages, target := [], reshard := false, state := if r.state = .held then .held else .spin, before := .spin }
          : Request).repin).pauseDue s.clk.wtime)
  else .fault .noSuchUnit

end Sys2Proof.Machine
end

