-- ==== Sys2Proof/Machine/Hostmsg.lean ====
section
/-!
DEFINITION. Processing a session message (R310, R314, R315, R323, R476): what every message command does before and
after its own effect.
-/
namespace Sys2Proof.Machine

/-- Classes of the tenant role (R314). -/
def tenantClass (cls : Nat) : Bool := decide (cls = 0) || decide (cls = 4) || decide (cls = 6)

/-- The session's role and its interface may send the class (R310, R314). -/
def Session.maySend (h : Session) (iface cls : Nat) : Bool :=
  if iface = 16 then decide (h.role ≠ 0) && mgmtClass cls
  else if h.role = 0 then tenantClass cls else decide (cls ≤ 8)

/-- The session may name a partition: its mask decides for a tenant while the isolation fuse is blown (R453). -/
def State.mayUse (s : State) (h : Session) (p : Nat) : Bool :=
  !s.boot.isolate || decide (h.role ≠ 0) || h.pmask.getLsbD p

/-- Reply to a message (R312, R323). -/
def State.reply (s : State) (m : Msg) (cls typ status : Nat) (body : List Byte) : State :=
  s.send m.ses cls typ true false m.seq status m.part body

/-- The reply to a message: status and body. -/
abbrev Reply := Nat × List Byte

/-- PFC_EN of ETH_CFG. -/
def Eth.pfcEn (e : Eth) : BitVec 8 := BitVec.ofNat 8 (e.cfg.toNat / 256)
/-- Bytes of the receive buffer a priority fills. -/
def Eth.rxFill (e : Eth) (prio : Nat) : Nat := (e.rx.filter fun x => decide (x.2.2.1 = prio)).foldl (fun n x => n + x.2.2.2) 0
/-- XOFF goes out for a priority above 75 % of 2 MiB and XON below 50 % (R316). -/
def Eth.pfc (e : Eth) : Eth :=
  { e with xoff := BitVec.ofNat 8 ((List.range 8).foldl (fun n i =>
      let f := e.rxFill i
      let on := e.pfcEn.getLsbD i && (decide (f > 1572864) || (e.xoff.getLsbD i && decide (f ≥ 1048576)))
      n + on.toNat * 2 ^ i) 0) }
/-- A held message leaves the receive buffer. -/
def State.rxTake (s : State) (ses seq : Nat) : State :=
  { s with eth := { s.eth with rx := s.eth.rx.filter fun x => !(decide (x.1 = ses) && decide (x.2.1 = seq)) }.pfc }

/-- The classes and types a host's message may have within a session (R314, R323): each is a command. -/
def hostTypes : List (Nat × Nat) :=
  [(0, 5), (0, 6), (0, 7), (1, 1), (1, 2), (2, 1), (2, 2), (2, 3), (2, 5), (2, 6), (3, 1), (3, 2), (3, 3), (3, 4), (3, 5), (3, 6),
   (4, 1), (4, 2), (4, 3), (4, 5), (4, 6), (4, 7), (4, 8), (4, 9), (4, 0xA), (5, 1), (6, 1), (6, 2), (7, 1), (7, 2), (8, 1)]
/-- Messages at the front of a session's queue whose class and type R323 gives no host are answered INCOMPATIBLE in their
turn, as R314 answers what a session may not send; at most `n` of them. -/
def State.turnAway (s : State) (ses : Nat) : Nat → State
  | 0 => s
  | n + 1 =>
    match s.session ses with
    | none => s
    | some h =>
      match h.ready with
      | [] => s
      | x :: rest =>
        if hostTypes.contains x.2 then s
        else
          let s := (s.setSession ses { h with ready := rest }).rxTake ses x.1
          (s.send ses x.2.1 x.2.2 true false x.1 stIncompat 0xFF []).turnAway ses n

/-- How many waiting messages may have to be turned away: none unless the first of them is. -/
def awayOf : List (Nat × Nat × Nat) → Nat
  | [] => 0
  | x :: _ => if hostTypes.contains x.2 then 0 else 257

/-- Process a message of a class and type (R315, R476). It must be the next of its session's messages to be processed,
or nothing happens. `len` is the body size its count fields imply, `ok` the ranges of its fields, `part` whether it
names a partition. A malformed message, or one the role or port may not send, is answered INCOMPATIBLE and changes
nothing; otherwise `f` acts, and its reply is sent. -/
def State.onMsg (s : State) (m : Msg) (cls typ len : Nat) (ok part : Bool) (f : Session → State → State × Option Reply) : Out :=
  match s.session m.ses with
  | none => .next s
  | some h =>
    match h.ready with
    | [] => .next s
    | x :: rest =>
      if x ≠ (m.seq, cls, typ) then .next s
      else
        let s := (s.setSession m.ses { h with ready := rest }).rxTake m.ses m.seq
        if m.len ≠ len ∨ m.rsv ≠ 0 ∨ !ok ∨ (part ∧ m.part > 15) then .next ((s.reply m cls typ stIncompat []).turnAway m.ses (awayOf rest))
        else if !h.maySend m.iface cls then .next ((s.reply m cls typ stIncompat []).turnAway m.ses (awayOf rest))
        else match f h s with
          | (s, some r) => .next ((s.reply m cls typ r.1 r.2).turnAway m.ses (awayOf rest))
          | (s, none) => .next (s.turnAway m.ses (awayOf rest))

/-- A SERVE message about a request: DOLDRUMS in Doldrums mode (R331, R441), GONE for a stale ID (R275), and for a tenant
INCOMPATIBLE where the request is another tenant's (R314, R452). -/
def State.onReq (s : State) (m : Msg) (typ len : Nat) (ok : Bool) (id : Nat)
    (f : Session → Nat → State → State × Reply) : Out :=
  s.onMsg m 4 typ len ok true fun h s =>
    if s.doldrums then (s, some (stDoldrums, []))
    else match s.findReq id with
      | none => (s, some (stGone, []))
      | some i =>
        let r := s.req i
        if h.role = 0 ∧ r.par.tenant ≠ h.tenant then (s, some (stIncompat, []))
        else
          let (s, a) := f h i s
          (s, some a)

/-- A PART message: DOLDRUMS in Doldrums mode (R441). -/
def State.onPart (s : State) (m : Msg) (typ len : Nat) (ok : Bool) (f : Session → State → State × Reply) : Out :=
  s.onMsg m 3 typ len ok true fun h s =>
    if s.doldrums then (s, some (stDoldrums, []))
    else
      let (s, a) := f h s
      (s, some a)

/-! ### Register writes with a row of their own (R327, R461) -/

/-- A REG_WRITE of one word to one register (R327): `f` writes it and answers its status, OK where the word counts in
DONE, another status where the message ends at it (R461). -/
def State.onRegWrite (s : State) (m : Msg) (addr : Nat) (f : Session → State → State × Nat) : Out :=
  s.onMsg m 1 2 12 true false fun h s =>
    let (s, st) := f h s
    (s, some (st, beBytes 4 addr ++ beBytes 2 (if st = stOk then 1 else 0) ++ beBytes 2 0))

end Sys2Proof.Machine
end

