-- ==== Sys2Proof/Machine/Session.lean ====
section
/-!
DEFINITION. Sessions and reliable delivery (R305, R306, R310 to R322, R331).
-/
namespace Sys2Proof.Machine

/-! ### Interfaces (R305) -/

/-- Interface by number. -/
def State.iface (s : State) (i : Nat) : Iface := tget s.eth.ifs Iface.reset i
/-- The interface's link is up, it is enabled, and the frame's tag is the one it requires (R305, R311, R333). -/
def State.accepts (s : State) (i : Nat) (tag : Option Nat) : Bool :=
  let f := s.iface i
  decide (i ≤ 16) && s.eth.link.getLsbD i && f.en && decide (tag = if f.tag then some f.vid else none)
/-- A datagram dropped (ETH_DROP). -/
def State.dropped (s : State) : State := { s with eth := { s.eth with drop := satInc s.eth.drop } }
/-- Class 0x3F (R332): subkind, interface, session or 0. -/
def State.hostEv (s : State) (sub iface ses : Nat) : State :=
  s.raise (s.edgeEv 0x3F (sp [(0, 1, sub), (1, 1, iface), (4, 4, ses)]))

/-! ### Closing (R292, R320) -/

/-- Cancel a request: at the commit of a step that holds it, else at once (R281, R301). -/
def State.cancelReq (s : State) (i : Nat) : State :=
  if s.inStep i then s.updReq i fun r => { r with cancelPend := true } else s.endReq i .cancelled stAborted
/-- A session closes: its pushes stop, its requests have no owner, and those with CANCEL_ON_CLOSE are cancelled (R292). -/
def State.closeSession (s : State) (ses : Nat) : State :=
  let mine := s.reqIdxs.filter fun i => decide ((s.req i).owner = ses)
  let s := { s with eth := { s.eth with sessions := tset s.eth.sessions none ses none
                                        rx := s.eth.rx.filter fun x => decide (x.1 ≠ ses) }.pfc }
  let s := mine.foldl (fun s i => s.updReq i fun r => { r with owner := 0 }) s
  let ends := mine.filter fun i => (s.req i).live && (s.req i).par.flags.testBit 3
  let s := (ends.filter s.inStep).foldl State.cancelReq s
  s.endMany ((ends.filter fun i => !s.inStep i).map fun i => (i, ReqState.cancelled, stAborted))

/-! ### The handshake (R317 to R319, R321) -/

/-- Bytes cut or filled with zeros to a length. -/
def fitBytes (n : Nat) (bs : List Byte) : List Byte := (bs ++ List.replicate n 0).take n
/-- Key material of a phase: the first 72 bytes of SHAKE256(ss ‖ th ‖ "wohatrum-keys") (R318, R320). -/
def phaseKey (ss th : Nat) : Nat :=
  leNat (shake256 72 (leBytes 32 ss ++ leBytes 64 th ++ [0x77, 0x6F, 0x68, 0x61, 0x74, 0x72, 0x75, 0x6D, 0x2D, 0x6B, 0x65, 0x79, 0x73]))
/-- CHALLENGE up to DSIG (R317): DNONCE, SESSION, CT and DPK for the n-th encapsulation. -/
def challengeHead (nonce ses n : Nat) (ek : List Byte) : List Byte :=
  beBytes 32 nonce ++ beBytes 4 ses ++ List.replicate 28 0 ++ fitBytes 1088 (Config.cipherText n ek) ++ fitBytes 1952 Config.deviceKey
/-- IDLE granted for IDLE_REQ (R321). -/
def State.grantIdle (s : State) (req : Nat) : Nat := if req = 0 then s.eth.sessCfg else max 10 (min 3600 req)
/-- A SESSION identifier no open or half-open session has, nor INIT, HELLO or relay traffic: the spec gives no other rule,
so the search begins at a free value (R312). -/
def State.pickSession (s : State) (v : Nat) : Nat :=
  let bad := fun i => decide (i = 0) || decide (i = 0xFFFFFFFF) || (s.session i).isSome || s.eth.half.any fun h => decide (h.ses = i)
  (((List.range 4200).map fun i => (v + i) % 2 ^ 32).find? fun i => !bad i).getD 1
/-- A message sent outside sessions: TYPE, SESSION, STATUS. -/
def State.hsSend (s : State) (typ ses status : Nat) : State :=
  { s with eth := { s.eth with hsOut := s.eth.hsOut ++ [(typ, ses, status)] } }

/-- INIT: HNONCE, ROLE, TENANT, IDLE_REQ and EK; the device answers with CHALLENGE, the same one for a repeated HNONCE,
or NO_ROOM beyond 64 half-open sessions (R317). A tenant may not open on the management port (R310). -/
def execInit (a : Arrive) (body : List Byte) (s : State) : Out :=
  if !s.accepts a.iface a.tag then .next s
  else
    let be := fun o n => leNat ((body.drop o).take n).reverse
    let nonce := be 0 32
    let role := be 32 1
    let ek := (body.drop 64).take 1184
    if body.length ≠ 1248 ∨ role > 2 ∨ be 33 1 ≠ 0 ∨ be 40 24 ≠ 0 then .next (s.hsSend 1 0 stIncompat)
    else if a.iface = 16 ∧ role = 0 then .next (s.hsSend 1 0 stIncompat)
    else match s.eth.half.find? fun h => decide (h.hnonce = nonce) with
      | some h => .next (s.hsSend 2 h.ses stOk)
      | none =>
        if s.eth.half.length ≥ 64 then .next (s.hsSend 1 0 stNoRoom)
        else
          let n := s.draws
          let (s, v) := s.draw
          let (s, dn) := s.draw
          let ses := s.pickSession v
          let head := challengeHead dn ses n ek
          let th1 := dig (body ++ head)
          let h : HalfOpen :=
            { hnonce := nonce, ses := ses, role := role, tenant := be 34 2, idle := s.grantIdle (be 36 4)
              ss := Config.sharedSecret n ek, th := dig (leBytes 64 th1 ++ Config.sign th1), at_ := s.clk.wtime }
          .next ({ s with eth := { s.eth with half := s.eth.half ++ [h] } }.hsSend 2 ses stOk)

/-- Forget a half-open session. -/
def State.dropHalf (s : State) (ses : Nat) : State :=
  { s with eth := { s.eth with half := s.eth.half.filter fun h => decide (h.ses ≠ ses) } }
/-- The principal entry that lets a key open a session of a role, and of a tenant for the tenant role (R319, R451). -/
def State.principal (s : State) (digest role tenant : Nat) : Option Principal :=
  ((s.boot.principals.map (·.2)).find? fun e =>
    e.valid && decide (e.digest = digest) && decide (e.role = role) && (decide (role ≠ 0) || decide (e.tenant = tenant)))
/-- Class 0x38 (R458): subkind and the first 8 bytes of a key digest. -/
def State.sigEv (s : State) (sub digest : Nat) : State :=
  s.raise (s.edgeEv 0x38 (sp [(0, 1, sub), (4, 8, leNat (leBytes 8 digest).reverse)]))

/-- PROVE: the host's key and its signature over TH2, of `hsig` bytes; `valid` is whether the signature verifies. The
device opens the session with ACCEPT under the conditions of R319, or refuses with BAD_SIGNATURE and class 0x38. -/
def execProve (a : Arrive) (ses : Nat) (hpk : List Byte) (hsig : Nat) (valid : Bool) (s : State) : Out :=
  if !s.accepts a.iface a.tag then .next s
  else match s.eth.half.find? fun h => decide (h.ses = ses) with
  | none => .next s
  | some h =>
    if s.clk.wtime > h.at_ + secs 1 then .next (s.dropHalf ses)
    else if hpk.length ≠ 1952 ∨ hsig ≠ 3309 then .next (s.hsSend 3 ses stIncompat)
    else
      let d := dig hpk
      let open_ := s.eth.sessions.length
      match s.principal d h.role h.tenant with
      | some e =>
        if valid ∧ open_ < 4096 ∧ (h.role ≠ 2 ∨ s.boot.owner = none ∨ s.boot.owner = some d) then
          let x : Session :=
            { role := h.role, tenant := h.tenant, digest := d, pmask := e.mask, idle := h.idle, iface := a.iface, addr := a.addr
              rcvd := 0, ahead := [], ready := [], nextOut := 1, tx := [], peerWin := a.window, cwnd := 64, acked := 0
              halved := 0, ece := false, lastRx := s.clk.wtime, keyph := false, key := phaseKey h.ss h.th, oldKey := none
              xmit := 1, rekeying := none, sel := [], latch := [], telMs := 0, telKinds := 0, telLast := [], evts := 0 }
          .next (((s.dropHalf ses).setSession ses x).hsSend 4 ses stOk)
        else .next (((s.dropHalf ses).hsSend 3 ses stBadSig).sigEv 3 d)
      | none => .next (((s.dropHalf ses).hsSend 3 ses stBadSig).sigEv 3 d)

/-- HANDSHAKE_TIMEOUT: PROVE has not come within 1 s of CHALLENGE (R317). -/
def execHandshakeTimeout (ses : Nat) (s : State) : Out :=
  match s.eth.half.find? fun h => decide (h.ses = ses) with
  | some h => .next (if s.clk.wtime ≥ h.at_ + secs 1 then s.dropHalf ses else s)
  | none => .next s

/-! ### Rekeying, PING and CLOSE (R320) -/

/-- Both directions take new keys: XMIT restarts and the old phase is accepted for 1 s (R318, R320). -/
def Session.newPhase (h : Session) (key now : Nat) : Session :=
  { h with oldKey := some (h.key, now + secs 1), key := key, keyph := !h.keyph, xmit := 0, rekeying := none }
/-- XMIT at which the device asks for new keys, before 2³¹ (R320; the spec leaves the point open). -/
def rekeyAt : Nat := 2 ^ 30
/-- The device sends a REKEY of its own once XMIT has come near its limit (R320). -/
def State.rekeyDue (s : State) (ses : Nat) : State :=
  match s.session ses with
  | none => s
  | some h =>
    if h.xmit < rekeyAt ∨ h.rekeying.isSome then s
    else
      let ek := fitBytes 1184 (Config.kemKey s.draws)
      let s := { s with draws := s.draws + 1 }
      (s.setSession ses { h with rekeying := some ek }).push ses 0 7 0xFF ek

/-- REKEY: `kem` is the EK of the host's request, or with `answer` the CT of its reply to the device's own REKEY. New
keys follow from the shared secret and the digest of the two REKEY bodies (R320). -/
def execRekey (m : Msg) (answer : Bool) (kem : List Byte) (s : State) : Out :=
  s.onMsg m 0 7 kem.length (decide (kem.length = if answer then 1088 else 1184)) false fun h s =>
    if answer then
      match h.rekeying, s.session m.ses with
      | some ek, some h => (s.setSession m.ses (h.newPhase (phaseKey (Config.decapsulate ek kem) (dig (ek ++ kem))) s.clk.wtime), none)
      | _, _ => (s, none)
    else
      let n := s.draws
      let s := { s with draws := s.draws + 1 }
      let ct := fitBytes 1088 (Config.cipherText n kem)
      let s := s.reply m 0 7 stOk ct
      match s.session m.ses with
      | some h => (s.setSession m.ses (h.newPhase (phaseKey (Config.sharedSecret n kem) (dig (kem ++ ct))) s.clk.wtime), none)
      | none => (s, none)

/-- PING: keeps a session open, as every datagram does, and is answered (R320, R323). -/
def execPing (m : Msg) (s : State) : Out := s.onMsg m 0 5 0 true false fun _ s => (s, some (stOk, []))
/-- CLOSE: ends the session at once (R320); its reply leaves once, with no session left to keep it. -/
def execClose (m : Msg) (s : State) : Out := s.onMsg m 0 6 0 true false fun _ s => ((s.closeSession m.ses).hsSend 6 m.ses stOk, none)

/-! ### Receiving (R312, R315, R316, R318, R322) -/

/-- The header is well formed (R312); SEQ is 0 in an ACKONLY datagram and nowhere else. -/
def dgramOk (d : Dgram) : Bool :=
  decide (d.ver = 1) && !d.flags.getLsbD 7 && decide (d.len ≤ 8704) && decide (d.len = d.body) && decide (1 ≤ d.window)
    && decide (d.window ≤ 256) && decide (d.rsv = 0) && (d.flags.getLsbD 1 == decide (d.seq = 0))
/-- The datagram is sealed under the keys of its phase: the phase in force, or the old one for 1 s (R318, R320). -/
def Session.opens (h : Session) (d : Dgram) (now : Nat) : Bool :=
  d.flags.getLsbD 2 &&
    (if d.flags.getLsbD 5 = h.keyph then decide (d.key = h.key)
     else match h.oldKey with
      | some (k, till) => decide (d.key = k) && decide (now ≤ till)
      | none => false)
/-- Acknowledgement up to SEQ `ack`: what lies at or before it is dropped, and cwnd rises by 1 for each 64 (R315, R316). -/
def Session.ackTo (h : Session) (ack : Nat) : Session :=
  let gone := h.tx.filter fun m => m.sent && (decide (m.seq = ack) || serialLt m.seq ack)
  let n := h.acked + gone.length
  { h with tx := h.tx.filter fun m => !gone.contains m, acked := n % 64, cwnd := min 256 (h.cwnd + n / 64) }
/-- ECE halves cwnd, to no fewer than 4, at most once per 100 µs (R316). -/
def Session.onEce (h : Session) (now : Nat) : Session :=
  if now ≥ h.halved + usecs 100 then { h with cwnd := max 4 (h.cwnd / 2), halved := now } else h
/-- ECN_EN of ETH_CFG. -/
def Eth.ecn (e : Eth) : Bool := e.cfg.getLsbD 16

/-- What every authenticated datagram of a session does (R315, R316, R320, R322): the peer's address and interface, its
acknowledgement, window, ECE and CE. A tenant's session does not move to the management port, which carries none (R3, R310). A session closes whose XMIT, its own or its peer's, would reach 2³² − 1. -/
def State.heard (s : State) (d : Dgram) (h : Session) : State :=
  let now := s.clk.wtime
  let stay := decide (d.iface = 16) && decide (h.role = 0)
  let h := { h.ackTo d.ack with iface := if stay then h.iface else d.iface, addr := if stay then h.addr else d.addr
                                lastRx := now, peerWin := d.window }
  let h := if d.flags.getLsbD 4 ∧ s.eth.ecn then h.onEce now else h
  let h := if d.ce ∧ s.eth.ecn then { h with ece := true } else h
  let h : Session := h.fill now
  if h.xmit + 1 ≥ 2 ^ 32 - 1 ∨ d.xmit ≥ 2 ^ 32 - 1 then (s.setSession d.ses h).closeSession d.ses
  else (s.setSession d.ses h).rekeyDue d.ses
/-- A datagram as far as its authentication: `f` acts for the session that opens it; another is dropped, and counted
where its header, session or sealing is at fault (R305, R306, R312, R318). -/
def State.onDgram (s : State) (d : Dgram) (f : Session → State) : Out :=
  if !s.accepts d.iface d.tag ∨ d.frag then .next s
  else if !dgramOk d then .next s.dropped
  else match s.session d.ses with
    | none => .next s.dropped
    | some h => if h.opens d s.clk.wtime then .next (f h) else .next s.dropped

/-- ACKONLY: acknowledges the device's messages and moves no sequence (R312, R315). -/
def execAckonly (d : Dgram) (s : State) : Out :=
  if !d.flags.getLsbD 1 then .next s else s.onDgram d fun h => s.heard d h

/-- Take a message in order, with those held that now follow it (R315). -/
def Session.accept (h : Session) (x : Nat × Nat × Nat) : Nat → Session
  | 0 => h
  | n + 1 =>
    let h := { h with rcvd := x.1, ready := h.ready ++ [x], ahead := h.ahead.filter fun y => decide (y.1 ≠ x.1) }
    match h.ahead.find? fun y => decide (y.1 = seqNext h.rcvd) with
    | some y => h.accept y n
    | none => h
/-- SEQ lies within the window of 256 beyond ACK (R315). -/
def inWindow (rcvd seq : Nat) : Bool := (List.range 256).any fun i => decide (Nat.repeat seqNext (i + 1) rcvd = seq)
/-- The reply to a duplicate request is sent again with RETX while it is unacknowledged (R315). -/
def State.again (s : State) (ses seq : Nat) : State :=
  match s.session ses with
  | none => s
  | some h =>
    if h.tx.any fun m => m.sent && m.reply && decide (m.corr = seq) && h.carries m then
      let tx := h.tx.map fun (m : OutMsg) =>
        if m.sent && m.reply && decide (m.corr = seq) && h.carries m then { m with sends := m.sends + 1 } else m
      let s := s.setSession ses { h.left 1 with tx := tx }
      { s with eth := { s.eth with retx := satInc s.eth.retx } }
    else s

/-- DATAGRAM_RECEIVE: a datagram with a message: a duplicate is acknowledged and its reply repeated, one within the window
is queued in SEQ order, one beyond it is dropped (R315). The acknowledgement leaves at once in an ACKONLY datagram. -/
def execDatagramReceive (d : Dgram) (s : State) : Out :=
  if d.flags.getLsbD 1 then .next s
  else s.onDgram d fun h =>
    let s := s.heard d h
    match s.session d.ses with
    | none => s
    | some h =>
      if inWindow h.rcvd d.seq then
        let x := (d.seq, d.cls, d.typ)
        let h := if d.seq = seqNext h.rcvd then h.accept x 257
          else if h.ahead.any fun y => decide (y.1 = d.seq) then h else { h with ahead := h.ahead ++ [x] }
        let new := !(s.eth.rx.any fun x => decide (x.1 = d.ses) && decide (x.2.1 = d.seq))
        let s := if new then { s with eth := { s.eth with rx := s.eth.rx ++ [(d.ses, d.seq, d.prio, 48 + d.len)] }.pfc } else s
        (s.setSession d.ses (h.left 1)).turnAway d.ses 257
      else if d.seq = h.rcvd ∨ serialLt d.seq h.rcvd then (s.setSession d.ses (h.left 1)).again d.ses d.seq
      else s.dropped

/-! ### Sending again, loss and silence (R315, R320) -/

/-- MESSAGE_RETRANSMIT: an unacknowledged message is resent after 100 µs, the interval doubling up to 100 ms (R315). -/
def execMessageRetransmit (ses seq : Nat) (s : State) : Out :=
  match s.session ses with
  | none => .next s
  | some h =>
    let now := s.clk.wtime
    match h.tx.find? fun m => decide (m.seq = seq) && m.sent && h.carries m && decide (m.due ≤ now) && decide (now < m.first + secs 1) with
    | none => .next s
    | some m =>
      let m' := { m with sends := m.sends + 1, due := now + min resendMost (resendFirst * 2 ^ (m.sends + 1)) }
      let s := s.setSession ses { h.left 1 with tx := h.tx.map fun y => if y.seq = seq then m' else y }
      .next { s with eth := { s.eth with retx := satInc s.eth.retx } }

/-- SESSION_LOST: a message has stayed unacknowledged for 1 s (R315). -/
def execSessionLost (ses : Nat) (s : State) : Out :=
  match s.session ses with
  | none => .next s
  | some h =>
    if h.tx.any fun m => m.sent && decide (s.clk.wtime ≥ m.first + secs 1) then
      .next ((s.closeSession ses).hostEv 2 h.iface ses)
    else .next s

/-- SESSION_IDLE_TIMEOUT: no datagram for the granted IDLE seconds (R320). -/
def execSessionIdleTimeout (ses : Nat) (s : State) : Out :=
  match s.session ses with
  | none => .next s
  | some h => .next (if s.clk.wtime ≥ h.lastRx + secs h.idle then s.closeSession ses else s)

end Sys2Proof.Machine
end

