-- ==== Sys2Proof/Machine/FwOps.lean ====
section
/-!
DEFINITION. Firmware components (R443 to R447): headers, compatibility, activation, confirmation and revert.
-/
namespace Sys2Proof.Machine

/-- A component, 1 to 6. -/
def State.comp (s : State) (k : Nat) : Comp := tget s.boot.comps Comp.reset k
/-- STATE to which a component returns when a transfer for it ends early: the staged image it may have had is gone. -/
def Comp.heldState (c : Comp) : Nat := if c.stage = 2 then 0 else c.stage
/-- Change a component. -/
def State.updComp (s : State) (k : Nat) (f : Comp → Comp) : State :=
  { s with boot := { s.boot with comps := tset s.boot.comps Comp.reset k (f (s.comp k)) } }
/-- Component codes. -/
def compNums : List Nat := [1, 2, 3, 4, 5, 6]
/-- Anti-rollback counter of a component: RB0 for 1, RB1 for 2 and 3, RB2 for 4, RB3 for 5 and 6 (R443). -/
def compCounter (k : Nat) : Nat := [0, 0, 1, 1, 2, 3, 3].getD k 0
/-- Value of a counter (R448). -/
def State.rb (s : State) (i : Nat) : Nat := s.boot.rb.getD i 0
/-- Class 0x39 (R458): subkind, a byte, the component and its VERSION. -/
def State.fwEv (s : State) (sub b k : Nat) : State := s.raise (s.edgeEv 0x39 (sp [(0, 1, sub), (1, 1, b), (2, 1, k), (4, 4, (s.comp k).active.version)]))

/-! ### Images (R444, R446) -/

/-- Bytes of a component's slot (R436). -/
def slotBytes (k : Nat) : Nat := [0, 16, 8, 4, 4, 4, 4].getD k 0 * 2 ^ 20
/-- Image described by a header. -/
def fwImage (h : List Byte) : Image :=
  { version := leAt h 8 4, svn := leAt h 7 1, mins := (List.range 6).map fun i => leAt h (0x18 + 4 * i) 4
    measure := dig (h.take 0x200), debug := (leAt h 0x10 4).testBit 0, valid := true }
/-- Images of a component that count as installed: the active one, and while PENDING both (R446). -/
def State.installed (s : State) (k : Nat) : List Image :=
  let c := s.comp k
  if c.state = 4 then [c.active, c.other] else [c.active]
/-- An image of component k is compatible with what is installed and with the loaded partitions (R446). -/
def State.fwCompatible (s : State) (k : Nat) (x : Image) : Bool :=
  ((compNums.filter (· ≠ k)).all fun c => (s.installed c).all fun y =>
    decide (x.mins.getD (c - 1) 0 ≤ y.version) && decide (y.mins.getD (k - 1) 0 ≤ x.version))
  && (decide (k > 3) || partNums.all fun p =>
    !(s.part p).loaded || decide ((s.part p).mins.getD (k - 1) 0 ≤ x.version))
/-- An inserted card or engine is compatible by its own running firmware (R446). -/
def State.deviceOk (s : State) (k : Nat) (f : FwInfo) : Bool :=
  s.fwCompatible k { version := f.version, svn := f.svn, mins := f.mins, measure := 0, debug := false, valid := true }
    && decide (s.rb (compCounter k) ≤ f.svn)

/-- Steps 1 to 4 of R445 on a header, `sig` telling whether its signature verifies under the vendor key: the failed step
and status. -/
def State.fwHeader (s : State) (h : List Byte) (sig : Bool) : Option (Nat × Nat) :=
  let k := leAt h 6 1
  let x := fwImage h
  let zero := fun o n => ((h.drop o).take n).all (· == 0)
  if leAt h 0 4 ≠ 0x4D495746 ∨ leAt h 4 2 ≠ 1 ∨ k = 0 ∨ k > 6 ∨ x.svn > 64 ∨ leAt h 0xC 4 = 0 ∨ leAt h 0xC 4 + 4096 > slotBytes k
      ∨ leAt h 0x10 4 > 1 ∨ !zero 0x14 4 ∨ !zero 0x70 400 ∨ !zero 0xEED 275 then some (1, stBadImage)
  else if !sig then some (2, stBadSig)
  else if x.svn < s.rb (compCounter k) then some (3, stRollback)
  else if (x.debug ∧ s.boot.debugLock) ∨ !s.fwCompatible k x then some (4, stIncompat)
  else none

/-! ### Regions' agents and vault controllers (R443, R463) -/

/-- Components 2 and 3 leave PENDING once no region awaits them, and begin to confirm (R443, R447). -/
def State.settlePending (s : State) : State :=
  if (List.range 64).any fun r => (s.region r).agt.pending then s
  else [2, 3].foldl (fun s k =>
    let c := s.comp k
    if c.state = 4 then
      if c.back then s.updComp k fun c => { c with state := 6, back := false }
      else (s.updComp k fun c => { c with state := 5, since := s.clk.wtime }).fwEv 0 0 k
    else s) s
/-- Regions take the active region agent and vault controller images (R443). -/
def State.activateRegions (s : State) (rs : List Nat) : State :=
  let s := rs.foldl (fun s r => s.updRegion r fun g =>
    { g with agt := { g.agt with pending := false, ver := (s.comp 2).active.version, vver := (s.comp 3).active.version } }) s
  s.settlePending

/-! ### Activation (R443, R447) -/

/-- Cards that may restart now: not while the other is absent, REBUILDING or READ_ONLY (R443). -/
def State.cardMayRestart (s : State) (c : Nat) : Bool :=
  let o := s.card (1 - c)
  o.present && decide (o.state ≠ 3) && decide (o.state ≠ 4)
/-- Links of the interfaces of a set go down (R332). -/
def State.linksDown (s : State) (ifs : List Nat) : State :=
  ifs.foldl (fun s i =>
    if s.eth.link.getLsbD i then
      { s with eth := { s.eth with link := s.eth.link &&& ~~~(BitVec.ofNat 17 (2 ^ i)) } }.hostEv 0 i 0
    else s) s
/-- Interfaces of port A or B. -/
def portIfs (port : Nat) : List Nat := (List.range 8).map fun i => 8 * port + i
/-- The parts of a component that restart, in order: stewards, cards, engines, or ports A and B with the management port. -/
def fwParts (k : Nat) : Nat := if k = 6 then 3 else if k = 1 ∨ k ≥ 4 then 2 else 0
/-- One part of an activation begins its restart: a card stops its writes, an engine or a port drops its links. -/
def State.fwBegin (s : State) (k j : Nat) : State :=
  if k = 4 then (if s.cardMayRestart j ∧ (s.card j).state = 2 then s.updCard j fun c => { c with state := 1 } else s)
  else if k = 5 then s.linksDown (portIfs j)
  else if k = 6 then s.linksDown (if j = 2 then [16] else portIfs j)
  else s
/-- The alternate slot becomes active and the activation runs: at once in the regions of no partition, with the others
PENDING; part by part elsewhere (R443). In Doldrums mode components 2 and 3 wait for the next start (R441). -/
def State.fwStart (s : State) (k : Nat) (back : Bool) : State :=
  let s := s.updComp k fun c =>
    { c with active := c.other, other := c.active, same := decide (c.active = c.other), state := 3, stage := 0, back := back, relayed := false }
  if k = 2 ∨ k = 3 then
    let s := s.updComp k fun c => { c with state := 4 }
    let s := (List.range 64).foldl (fun s r => s.updRegion r fun g => { g with agt := { g.agt with pending := true } }) s
    let s := if s.doldrums then s else s.activateRegions ((List.range 64).filter fun r => (s.region r).part = none)
    if (s.comp k).state = 4 then s.fwEv 3 0 k else s
  else s.fwBegin k 0
/-- An activation has run in every part: the component confirms, or rests reverted (R447). -/
def State.fwDone (s : State) (k : Nat) : State :=
  if (s.comp k).back then s.updComp k fun c => { c with state := 6, back := false }
  else (s.updComp k fun c => { c with state := 5, since := s.clk.wtime }).fwEv 0 0 k
/-- Return a component that has not confirmed to its previous image (R447). -/
def State.fwRevert (s : State) (k : Nat) : State :=
  let st := (s.comp k).state
  if (st = 3 ∨ st = 4 ∨ st = 5) ∧ (s.comp k).other.valid then (if (s.comp k).back then s else (s.fwStart k true).fwEv 2 0 k) else s
/-- A fault of a component that has not confirmed reverts it (R447). -/
def State.fwFault (s : State) (k : Nat) : State :=
  if (s.comp k).state = 5 then s.fwRevert k else s
/-- A fault of the agent of region r, which may run an image that is PENDING elsewhere (R443, R447). -/
def State.agentFault (s : State) (r : Nat) : State :=
  if (s.comp 2).state = 4 ∧ !(s.region r).agt.pending ∧ (s.region r).agt.ver = (s.comp 2).active.version then s.fwRevert 2
  else s.fwFault 2

/-! ### Transfers that end early (R191, R193, R445) -/

/-- A transfer ends without effect: its staged bytes go, what it had reserved is released, and the owner is told. A
container that had reserved its partition ends the load; a partition that serves keeps serving; a firmware image leaves
the active copy alone, the alternate slot holding nothing valid any more. -/
def State.xferFails (s : State) (x : Xfer) (check typ status : Nat) : State :=
  let s := (s.imgDone x check 1 status 0).dropXfer x.id
  if x.kind = 2 then
    let k := x.slot
    let s := if x.holds then (s.updComp k fun c => { c with state := c.heldState, stage := 0 }).settlePending else s
    let s := s.fwEv 4 status k
    { s with eth := { s.eth with relays := s.eth.relays.filter fun r => decide (r.xfer ≠ x.id) } }
  else if x.target ≠ 0 then s
  else if x.kind = 0 then
    if x.holds ∧ (s.part x.part).state = .receiving then s.loadEnds x.part check typ status
    else s.updPart x.part fun y => { y with last := status, errCheck := check, errType := typ }
  else if x.kind = 3 ∧ x.holds then
    s.updPart x.part fun y => { y with adapt := tset y.adapt ⟨0, 0⟩ x.slot ⟨0, 0⟩ }
  else if x.kind = 1 ∧ 7 ≤ check ∧ (s.part x.part).state = .loading then s.loadEnds x.part check typ status
  else s

end Sys2Proof.Machine
end

