-- ==== Sys2Proof/Machine/Verify.lean ====
section
/-!
DEFINITION. Checks of a Herisk container (R186 to R192, R196 to R213, R216, R219, R249).
-/
namespace Sys2Proof.Machine

/-- Bytes o to o + n − 1 are zero. -/
def zeroAt (bs : List Byte) (o n : Nat) : Bool := ((bs.drop o).take n).all (· == 0)

/-! ### The head (R186 to R190) -/

/-- A section table entry (R188). -/
structure SecEntry where
  (typ flags off len digest : Nat)
  pad : Bool     -- its reserved bytes are zero
  deriving DecidableEq, Repr
/-- ALT of an entry. -/
def SecEntry.alt (x : SecEntry) : Nat := x.flags / 2 % 8
/-- REQUIRED of an entry. -/
def SecEntry.req (x : SecEntry) : Bool := x.flags.testBit 0
/-- Entry i of the section table. -/
def secEntry (bs : List Byte) (i : Nat) : SecEntry :=
  let o := 0x400 + 96 * i
  { typ := leAt bs o 2, flags := leAt bs (o + 2) 2, off := leAt bs (o + 8) 8, len := leAt bs (o + 16) 8
    digest := leAt bs (o + 0x20) 64, pad := zeroAt bs (o + 4) 4 && zeroAt bs (o + 0x18) 8 }
/-- The entries in use. -/
def secEntries (bs : List Byte) : List SecEntry := (List.range (min 32 (leAt bs 0xC 2))).map (secEntry bs)
/-- FLAGS: 0 DEBUG, 1 PARTIAL, 2 SIGNED (R187). -/
def headFlag (bs : List Byte) (i : Nat) : Bool := (leAt bs 8 4).testBit i
/-- Fields of the header (R187). -/
def headTotal (bs : List Byte) : Nat := leAt bs 0x10 8
/-- ROW0, COL0, ROWS and COLS. -/
def headRect (bs : List Byte) : Nat × Nat × Nat × Nat := (leAt bs 0x18 1, leAt bs 0x19 1, leAt bs 0x1A 1, leAt bs 0x1B 1)
/-- Configuration digest (R186). -/
def confDigest (bs : List Byte) : Nat := dig (bs.take 0x1000)
/-- Regions of a rectangle. -/
def rectRegions (q : Nat × Nat × Nat × Nat) : List Nat :=
  (List.range q.2.2.1).flatMap fun i => (List.range q.2.2.2).map fun j => 8 * (q.1 + i) + q.2.1 + j

/-- Step 1 of R192: R187, and the bytes R190 gives as zero. -/
def headOk (bs : List Byte) (total : Nat) : Bool :=
  decide (leAt bs 0 4 = 0x4B535248) && decide (leAt bs 4 2 = 1) && decide (leAt bs 8 4 ≤ 7) && decide (1 ≤ leAt bs 0xC 2)
    && decide (leAt bs 0xC 2 ≤ 32) && decide (leAt bs 0xE 2 = 0x4000) && decide (0x4040 ≤ headTotal bs)
    && decide (headTotal bs ≤ 0x40000000) && decide (headTotal bs = total) && zeroAt bs 0x2C 4 && zeroAt bs 0x130 720
    && (headFlag bs 1 || zeroAt bs 0xB0 64) && (if headFlag bs 2 then zeroAt bs 0x248D 0x1B73 else zeroAt bs 0x1000 0x3000)
/-- Step 2 of R192 for a head whose signature block lies at offset `o`, an embedded key and a signature over the bytes before its
block (R190, R258). -/
def State.signOk (s : State) (bs : List Byte) (o signedLen : Nat) (signed : Bool) : Bool :=
  if signed then Config.mldsa ((bs.drop o).take 1952) (bs.take signedLen) ((bs.drop (o + 0x7A0)).take 3309) && (decide (s.boot.owner = none) || decide (s.boot.owner = some (dig ((bs.drop o).take 1952))))
  else decide (s.boot.owner = none)
/-- Digest of the embedded key, or 0 for an unsigned container (R190). -/
def signerOf (bs : List Byte) (o : Nat) (signed : Bool) : Nat := if signed then dig ((bs.drop o).take 1952) else 0
/-- Step 3 of R192: installed versions, the debug lock, and for a partial its base. -/
def State.versionsOk (s : State) (bs : List Byte) : Bool :=
  ([1, 2, 3].all fun k => (s.installed k).all fun y => decide (leAt bs (0x1C + 4 * k) 4 ≤ y.version))
    && !(headFlag bs 0 && s.boot.debugLock)
/-- The part of step 3 a stored container leaves out: BASE_DIGEST and the DEBUG flag of a partial (R219, R478). -/
def Part.baseOk (x : Part) (bs : List Byte) : Bool :=
  !headFlag bs 1 || (decide (leAt bs 0xB0 64 = x.digest) && decide (headFlag bs 0 = x.debug))

/-- Regions a partition number holds or has reserved: its rectangle and its standby regions. -/
def Part.claims (x : Part) : List Nat := if x.state = .empty then [] else x.rect ++ x.standby
/-- Step 4 of R192 for partition p: the rectangle, the number, the regions, and the isolation fuse (R453). `own` is set
when the check is repeated for the partition's own reservation (step 11). -/
def State.placeOk (s : State) (p : Nat) (bs : List Byte) (own : Bool) : Bool :=
  let q := headRect bs
  let x := s.part p
  let others := partNums.filter (· ≠ p)
  decide (1 ≤ q.2.2.1) && decide (1 ≤ q.2.2.2) && decide (q.1 + q.2.2.1 ≤ 8) && decide (q.2.1 + q.2.2.2 ≤ 8)
    && (if headFlag bs 1 then decide (x.state ≠ .empty) else own || decide (x.state = .empty))
    && (rectRegions q).all (fun r => others.all fun o => !(s.part o).claims.contains r && decide ((s.region r).part ≠ some o))
    && (headFlag bs 1 || !(s.boot.isolate && others.any fun o => (s.part o).loaded && (headFlag bs 0 || (s.part o).debug)))

/-- Section types (R189): known, required in a full container, with alternates. -/
def knownType (t : Nat) : Bool := decide (1 ≤ t) && decide (t ≤ 0xE)
/-- Types that may carry alternates. -/
def altType (t : Nat) : Bool := decide (2 ≤ t) && decide (t ≤ 6)
/-- Types a partial may carry (R219), or a tuning container (R249). -/
def partialType (debug tuning : Bool) (t : Nat) : Bool :=
  if tuning then altType t else altType t || decide (t = 8) || decide (t = 0xA) || decide (t = 0xB) || (debug && decide (t = 0xD)) || decide (t = 0xE)
    || !knownType t
/-- Sections after the first follow their neighbour in order, apart, with gaps below 64 bytes (R188). -/
def gapsOk : List SecEntry → Bool
  | x :: y :: r => decide (x.off + x.len ≤ y.off) && decide (y.off < x.off + x.len + 64) && gapsOk (y :: r)
  | _ => true
/-- Step 5 of R192: status and section type of the first failure. -/
def Part.tableFault (x : Part) (bs : List Byte) (stored : Bool) : Option (Nat × Nat) :=
  let es := secEntries bs
  let debug := headFlag bs 0
  let part := headFlag bs 1
  let tuning := part && !stored && x.tuneSlot.isSome
  let primary := fun t => (es.filter fun e => decide (e.typ = t) && decide (e.alt = 0)).length
  let bad := es.find? fun e =>
    !e.pad || decide (e.flags ≥ 16) || decide (e.alt > 4) || decide (e.off % 64 ≠ 0) || decide (e.off < 0x4000) || decide (e.len = 0)
      || (decide (e.alt ≠ 0) && knownType e.typ && !altType e.typ) || (decide (e.typ = 0xD) && !debug)
      || (part && !partialType debug tuning e.typ)
      || decide ((es.filter fun f => decide (f.typ = e.typ) && decide (f.alt = e.alt) && knownType e.typ).length > 1)
  let lastEnd := es.foldl (fun _ e => e.off + e.len) 0x4000
  match bad with
  | some e => some (stBadImage, e.typ)
  | none =>
    if !gapsOk es ∨ lastEnd > headTotal bs ∨ !zeroAt bs (0x400 + 96 * es.length) (96 * (32 - es.length)) then
      some (stBadImage, 0xFFFF)
    else match es.find? fun e => !knownType e.typ && e.req with
      | some e => some (stIncompat, e.typ)
      | none =>
        let need := (List.range 12).map (· + 1) ++ (if debug then [0xD] else [])
        match if part then none else need.find? fun t => decide (primary t ≠ 1) with
        | some t => some (stBadImage, t)
        | none =>
          if part ∧ !stored ∧ (headRect bs ≠ (x.row0, x.col0, x.rows, x.cols) ∨ leAt bs 0xF0 64 ≠ x.model) then some (stBadImage, 0xFFFF)
          else none

/-! ### Defect maps (R213) -/

/-- Fields of a slub. -/
def Slub.kind (b : Slub) : Nat := b.w0.toNat % 256
/-- REGION. -/
def Slub.region (b : Slub) : Nat := b.w0.toNat / 256 % 256
/-- CLUSTER. -/
def Slub.cluster (b : Slub) : Nat := b.w0.toNat / 65536 % 256
/-- Physical row of POS. -/
def Slub.row (b : Slub) : Nat := b.w0.toNat / 2 ^ 28 % 8
/-- A slub as the SLUB section holds it. -/
def Slub.bytes (b : Slub) : List Byte := leBytes 4 b.w0.toNat ++ leBytes 4 b.w1.toNat ++ leBytes 4 b.w2.toNat ++ leBytes 4 b.w3.toNat
/-- Slubs of a list of regions. -/
def State.slubsOf (s : State) (rs : List Nat) : List Slub := s.evt.slubs.filter fun b => rs.contains b.region
/-- Entries of a SLUB section. -/
def sectSlubs (bs : List Byte) : List Slub :=
  (List.range (leAt bs 0 4)).map fun i =>
    let o := 64 + 16 * i
    let w := fun k => BitVec.ofNat 32 (leAt bs (o + 4 * k) 4)
    ⟨w 0, w 1, w 2, w 3⟩
/-- Is a cluster row vacant in a CMAP section: region r of a rectangle, cluster u, row k (R197, R198). -/
def cmapVacant (cm : List Byte) (q : Nat × Nat × Nat × Nat) (r u k : Nat) : Bool :=
  let y := 32 * (r / 8 - q.1) + 8 * (u / 4) + k
  let x := 32 * (r % 8 - q.2.1) + 8 * (u % 4)
  (cmapEntry cm (32 * q.2.2.2 * y + x)).2.2
/-- A slub of one of the kinds in the row of another. -/
def Slub.sameRow (b : Slub) (kinds : List Nat) (c : Slub) : Bool :=
  kinds.contains c.kind && decide (c.region = b.region) && decide (c.cluster = b.cluster) && decide (c.row = b.row)
/-- A device slub that the section does not list is acceptable (R213): a dead core or a dead spare only where no other core
of its row, the spare counted, is dead. -/
def slubAccepted (all : List Slub) (cm : List Byte) (q : Nat × Nat × Nat × Nat) (b : Slub) : Bool :=
  let rowVacant := cmapVacant cm q b.region b.cluster b.row
  let clusterVacant := fun u => (List.range 8).all fun k => cmapVacant cm q b.region u k
  match b.kind with
  | 1 => rowVacant || decide ((all.filter (b.sameRow [1, 2])).length ≤ 1)
  | 2 => rowVacant || !all.any (b.sameRow [1])
  | 4 => rowVacant
  | 5 => clusterVacant b.cluster
  | 6 => (List.range 16).all clusterVacant
  | _ => true
/-- The SLUB section against the device's map for the rectangle (R213). -/
def State.slubsOk (s : State) (q : Nat × Nat × Nat × Nat) (sl cm : List Byte) : Bool :=
  let dev := s.slubsOf (rectRegions q)
  let sec := sectSlubs sl
  (sec.all fun b => dev.any fun c => decide (c.key = b.key))
    && dev.all fun c => (sec.any fun b => decide (b.key = c.key)) || slubAccepted dev cm q c

/-! ### Structure of the sections (R216) -/

/-- Values of a list differ pairwise. -/
def distinct (l : List Nat) : Bool := decide (l.eraseDups.length = l.length)
/-- GEOM (R196). -/
def geomOk (b : List Byte) : Bool :=
  let f := leAt b
  decide (b.length = 64) && decide (16 ≤ f 0 2) && decide (f 0 2 ≤ 112) && decide (f 0 2 % 8 = 0) && decide (1 ≤ f 2 2) && decide (f 2 2 ≤ 4096)
    && decide (1 ≤ f 4 4) && decide (f 4 4 ≤ 32768) && decide (64 ≤ f 8 4) && decide (f 8 4 ≤ 1048576) && decide (f 8 4 % 64 = 0)
    && decide (1 ≤ f 12 4) && decide (f 12 4 ≤ 262144) && decide (1 ≤ f 16 1) && decide (f 16 1 ≤ 8) && zeroAt b 17 1
    && decide (1 ≤ f 18 2) && decide (f 18 2 ≤ 255) && decide (1000 ≤ f 20 4) && decide (f 20 4 ≤ 1000000) && zeroAt b 24 40
/-- CMAP (R197, R198): n cores in rows of w. -/
def cmapOk (b : List Byte) (n classes rsets : Nat) : Bool :=
  decide (b.length = 4 * n) && (List.range n).all fun i =>
    let (c, r, v) := cmapEntry b i
    decide (leAt b (4 * i) 4 < 2 ^ 21) && (v || (decide (c < classes) && decide (r < rsets)))
      && decide (v = (cmapEntry b (i - i % 8)).2.2)
/-- The loop rules of R86 over a class's words in address order: targets still open at each address, at most four. -/
def loopsOk (word : Nat → DWord) (n : Nat) : List Nat → List Nat → Bool
  | [], _ => true
  | a :: r, open_ =>
    let w := word a
    if opOf w = 4 ∨ opOf w = 5 then
      let tgt := fld w 53 42
      let now := tgt :: open_.filter fun t => decide (a ≤ t)
      let e := opOf (word tgt)
      decide (a < tgt) && decide (tgt < n) && decide (now.length ≤ 4) && decide (e ≠ 1) && decide (e ≠ 3) && decide (e ≠ 4) && decide (e ≠ 5)
        && loopsOk word n r now
    else loopsOk word n r open_
/-- PROG (R81, R86, R199): classes, entries, legal words, loop rules, HALT only with DEBUG. -/
def progOk (b : List Byte) (debug : Bool) : Bool :=
  decide (1 ≤ leAt b 0 2) && decide (leAt b 0 2 ≤ 1024) && zeroAt b 2 62 && (progOffs b).all fun o =>
    let n := leAt b o 2
    decide (1 ≤ n) && decide (n ≤ 4096) && decide (leAt b (o + 2) 2 < n) && decide (leAt b (o + 4) 2 < n) && zeroAt b (o + 6) 10
      && decide (o + pad64 (16 + 8 * n) ≤ pad64 b.length) && zeroAt b (o + 16 + 8 * n) (pad64 (16 + 8 * n) - 16 - 8 * n)
      && (List.range n).all (fun j =>
        let w := BitVec.ofNat 64 (leAt b (o + 16 + 8 * j) 8)
        !illegalWord w && (debug || decide (opOf w ≠ 2)))
      && loopsOk (fun j => BitVec.ofNat 64 (leAt b (o + 16 + 8 * j) 8)) n (List.range n) []
/-- Instructions of the longest class. -/
def progLongest (b : List Byte) : Nat := ((progOffs b).map fun o => leAt b o 2).foldl max 0
/-- A frame sequence of PLAN (R141, R200): legal items first, then zeros. -/
def itemsOk (b : List Byte) (o : Nat) : Bool :=
  let ws := (List.range 16).map fun i => leAt b (o + 8 * i) 8
  let n := (ws.takeWhile fun x => x.testBit 6).length
  (ws.drop n).all (· == 0) && (ws.take n).all fun x =>
    decide (x / 16 % 4 ≠ 3) && decide (x / 128 % 512 = 0) && decide (x / 2 ^ 48 = 0) && decide (leAt b (2 * (x % 8)) 2 ≠ 0)
/-- A router entry is legal (R143). -/
def routerOk (b : List Byte) (e : Nat) : Bool :=
  let sb := e / 2 ^ 20 % 16
  let add := e.testBit 24
  let flen := leAt b (2 * (e / 2 ^ 27 % 8)) 2
  decide (e % 4096 < flen) && decide (e / 4096 % 16 ≤ 9) && decide (e / 65536 % 16 ≤ 11) && (if add then decide (sb ≤ 9) else decide (sb = 15))
    && decide (e / 2 ^ 30 = 0)
/-- PLAN (R141, R143, R144, R200, R239). -/
def planOk (b : List Byte) : Bool :=
  ((List.range 8).all fun i => let f := leAt b (2 * i) 2; decide (f = 0) || (decide (256 ≤ f) && decide (f ≤ 4096)))
    && itemsOk b 0x10 && itemsOk b 0x90 && decide (((seqItems b 0x90).filter fun x => decide (x.sel = 2)).length = 1)
    && decide (1 ≤ leAt b 0x110 2) && decide (leAt b 0x110 2 ≤ 1024) && zeroAt b 0x112 46 && (rsetOffs b).all fun o =>
      let n := leAt b o 2
      let es := (List.range n).map fun j => leAt b (o + 64 + 4 * j) 4
      decide (n ≤ 4096) && zeroAt b (o + 2) 62 && decide (o + 64 + 4 * n ≤ b.length) && es.all (routerOk b)
        && distinct (es.map fun e => (e / 2 ^ 27 % 8) * 65536 + e % 65536)
/-- ROUTE (R204, R205): tables of known switches, zero padding, a send route set per class. -/
def routeOk (b : List Byte) (classes : Nat) : Bool :=
  decide (1 ≤ leAt b 0 2) && decide (leAt b 0 2 ≤ 1098) && zeroAt b 2 62
    && ((tabOffs b).all fun o =>
      let id := leAt b o 4
      let z := tabEntry id
      (decide (id < 64) || (decide (0x100 ≤ id) && decide (id < 0x108)) || decide (id = 0x200) || decide (id = 0x201)
        || (decide (0x1000 ≤ id) && decide (id < 0x1400)))
        && decide (o + 8 + z * leAt b (o + 4) 4 ≤ b.length)
        && (List.range (leAt b (o + 4) 4)).all fun j =>
          let w := leAt b (o + 8 + z * j) z
          if z = 16 then decide (w / 2 ^ 20 % 2 ^ 44 = 0) else decide (w / 2 ^ 44 = 0))
    && decide (b.length = routeOff b + 64 * classes)
    && (List.range (16 * classes)).all fun j => decide (leAt b (routeOff b + 4 * j) 4 < 2 ^ 19)
/-- BANK (R110, R113, R117, R206). -/
def bankOk (b : List Byte) (classes longest : Nat) : Bool :=
  decide (leAt b 0 4 < 2 ^ 26) && zeroAt b 4 60 && decide (b.length = 64 + 512 * classes)
    && (decide (longest ≤ 2048) || (leAt b 0 4).testBit 25) && (List.range classes).all fun c =>
      let k := (b.drop (64 + 512 * c)).take 512
      let size := fun i => leAt k (8 * i) 8 / 2 ^ 18 % 2 ^ 18
      let inbox := fun o => let v := leAt k o 1
        decide (v / 16 % 8 = 0) && (!v.testBit 7 || decide (size (16 + v % 16) > 0))
      ((List.range 48).all fun i =>
        let x := leAt k (8 * i) 8
        decide (x / 2 ^ 36 = 0) && (decide (size i = 0) || (decide (x % 64 = 0) && decide (size i % 64 = 0)
          && decide (x % 2 ^ 18 + size i ≤ padSize (i / 16)))))
        && ((List.range 16).all fun n => let v := leAt k (0x180 + n) 1
          decide (v ≤ 4) && (decide (v = 0) || decide (size (16 + n) > 0)))
        && inbox 0x190 && inbox 0x191 && zeroAt k 0x192 110
/-- VLAY (R207): (kind, index, first, count) of each area. -/
def vlayAreas (b : List Byte) : List (Nat × Nat × Nat × Nat) :=
  (List.range (min 16 (leAt b 0 2))).map fun i =>
    let o := 64 + 16 * i
    (leAt b o 1, leAt b (o + 1) 1, leAt b (o + 4) 4, leAt b (o + 8) 4)
/-- See `vlayAreas`. -/
def vlayOk (b : List Byte) : Bool :=
  let as := vlayAreas b
  decide (b.length = 320) && decide (1 ≤ leAt b 0 2) && decide (leAt b 0 2 ≤ 16) && zeroAt b 2 62 && zeroAt b (64 + 16 * as.length) (16 * (16 - as.length))
    && (as.all fun a => decide (a.1 ≤ 6) && decide (1 ≤ a.2.2.2) && decide (a.2.2.1 + a.2.2.2 ≤ 524288))
    && ((List.range as.length).all fun i => zeroAt b (64 + 16 * i + 2) 2 && zeroAt b (64 + 16 * i + 12) 4)
    && ((List.range as.length).all fun i => (List.range i).all fun j =>
      let a := as.getD i (0, 0, 0, 0)
      let c := as.getD j (0, 0, 0, 0)
      decide (a.2.2.1 + a.2.2.2 ≤ c.2.2.1) || decide (c.2.2.1 + c.2.2.2 ≤ a.2.2.1))
    && decide ((as.filter fun a => decide (a.1 = 0)).length = 1) && (as.any fun a => decide (a.1 = 3))
    && ([0, 1, 2, 3, 4, 5, 6].all fun k => (((as.filter fun a => decide (a.1 = k)).map fun a => a.2.1)) ==
      List.range (as.filter fun a => decide (a.1 = k)).length)
/-- PREC (R208), consistent with PAGE (R209). -/
def precOk (b : List Byte) (kvfmt : Nat) : Bool :=
  let n := leAt b 0 2
  let e := fun i => leAt b (64 + 8 * i) 8
  zeroAt b 2 62 && decide (b.length = 64 + 8 * n) && decide (1 ≤ n) && decide (e (n - 1) % 256 = 0xFF) && (List.range n).all fun i =>
    let x := e i
    let g := x / 256 % 8
    let mxf := x / 2 ^ 14 % 16
    let kvf := x / 2 ^ 18 % 16
    decide (g ≤ 4) && decide (g = 4 ↔ x % 256 = 0xFF) && decide (2 ≤ mxf) && decide (mxf ≤ 7) && decide (x / 2 ^ 11 % 8 ≠ 6)
      && (if g = 0 then decide (kvf = kvfmt) else decide (kvf = 0)) && decide (x / 2 ^ 56 = 0)
      && decide (x % 256 ≠ 0xFF ∨ i = n - 1)
      && (decide (i = 0) || decide (e (i - 1) % 256 < x % 256) || (decide (e (i - 1) % 256 = x % 256) && decide (e (i - 1) / 256 % 8 ≤ g)))
/-- PAGE (R209, R224). -/
def pageOk (b vl : List Byte) : Bool :=
  let f := leAt b
  decide (b.length = 64) && decide (8 ≤ f 0 1) && decide (f 0 1 ≤ 10) && decide (f 2 2 = 64) && decide (f 14 2 = 128) && [1, 2, 4, 8, 16].contains (f 12 2) && decide (f 8 4 ≤ 4096)
    && decide (f 4 4 = (2 * f 16 2 + 63) / 64 * halfLen (f 0 1)) && zeroAt b 18 46
    && (vlayAreas vl).any fun a => decide (a.1 = 3) && decide (a.2.1 = f 1 1) && decide (f 8 4 * f 4 4 ≤ a.2.2.2)
/-- CLKL (R210, R356). -/
def clklOk (b : List Byte) : Bool :=
  decide (b.length = 64) && decide (leAt b 0 2 ≤ 1400) && decide (leAt b 2 2 ≤ leAt b 0 2) && decide (1 ≤ leAt b 4 2) && decide (leAt b 4 2 ≤ 320)
    && decide (max 8 ((2 * leAt b 2 2 + 174) / 175) ≤ 2 * leAt b 0 2 / 175) && zeroAt b 8 56
/-- REPR (R211, R212). Bits 7 and 6 of a PAIR and the PAIR slots past NPAIR are zero (DESIGN CHOICE, log 228: R211 names the bits of a
PAIR without these two, and says nothing of the slots). -/
def reprOk (b : List Byte) (q : Nat × Nat × Nat × Nat) : Bool :=
  let n := leAt b 1 1
  let ps := (List.range n).map fun i => leAt b (4 + 4 * i) 4
  decide (b.length = 64) && decide (leAt b 0 1 < 8) && decide (n ≤ 4) && zeroAt b 2 2 && zeroAt b (4 + 4 * n) (60 - 4 * n)
    && (ps.all fun x => decide (x / 64 % 4 = 0) && decide (x < 2 ^ 14) && (rectRegions q).contains (x % 64) && !(rectRegions q).contains (x / 256 % 64))
    && distinct (ps.map fun x => x % 64) && distinct (ps.map fun x => x / 256 % 64)
/-- SLUB (R213): length and order. -/
def slubOk (b : List Byte) : Bool :=
  let l := sectSlubs b
  decide (b.length = 64 + 16 * leAt b 0 4) && zeroAt b 4 60 && (l.zip (l.drop 1)).all fun x => decide (x.1.key < x.2.key)

/-- Step 9 of R192 on one configuration, `sect` giving the section of each type: the type of the first that breaks a
check of R216. -/
def structFault (sect : Nat → List Byte) (q : Nat × Nat × Nat × Nat) (debug : Bool) : Option Nat :=
  let classes := leAt (sect 3) 0 2
  let checks : List (Nat × Bool) :=
    [(1, geomOk (sect 1)), (2, cmapOk (sect 2) (1024 * q.2.2.1 * q.2.2.2) classes (leAt (sect 4) 0x110 2)), (3, progOk (sect 3) debug),
     (4, planOk (sect 4)), (5, routeOk (sect 5) classes), (6, bankOk (sect 6) classes (progLongest (sect 3))), (7, vlayOk (sect 7)),
     (8, precOk (sect 8) (leAt (sect 9) 0 1)), (9, pageOk (sect 9) (sect 7)), (0xA, clklOk (sect 0xA)), (0xB, reprOk (sect 0xB) q),
     (0xC, slubOk (sect 0xC))]
  (checks.find? fun c => !c.2).map (·.1)

/-- The sections of a complete container, as the steward keeps them. -/
def sectionsOf (bs : List Byte) : List Section :=
  (secEntries bs).map fun e => { typ := e.typ, alt := e.alt, bytes := (bs.drop e.off).take e.len }
/-- A partial's sections over loaded ones. -/
def mergeSections (old new : List Section) : List Section :=
  (old.filter fun x => !new.any fun y => decide (y.typ = x.typ) && decide (y.alt = x.alt)) ++ new
/-- A partition with a container's header, sections and pairing. -/
def Part.withSections (x : Part) (cfg : List Section) (alt : Nat) : Part := { x with cfg := cfg, alt := alt, tuned := false }
/-- Step 9 for the primary configuration and every pairing's alternate. -/
def structAll (x : Part) (cfg : List Section) (q : Nat × Nat × Nat × Nat) (debug : Bool) : Option Nat :=
  ((List.range 5).filterMap fun a =>
    if a = 0 ∨ cfg.any fun y => decide (y.alt = a) then structFault (x.withSections cfg a).sect q debug else none).head?
/-- Gaps between sections are zero (R188). -/
def gapsZero (bs : List Byte) : List SecEntry → Bool
  | x :: y :: r => zeroAt bs (x.off + x.len) (y.off - (x.off + x.len)) && gapsZero bs (y :: r)
  | _ => true
/-- POWER_CAP of a loaded partition, or that of a verified partial it has yet to apply where it is higher (R210). -/
def Part.capMost (x : Part) : Nat :=
  match x.pend.find? fun y => decide (y.typ = 0xA) && decide (y.alt = 0) with
  | some y => max x.powCap (leAt y.bytes 4 2)
  | none => x.powCap
/-- Step 10 of R192: groups and lanes, power cap, standby regions (R172, R175, R210, R212). -/
def State.resourcesOk (s : State) (p : Nat) (x : Part) : Bool :=
  let others := partNums.filter (· ≠ p)
  let other := s.tree.groups.filter fun g => decide (g.part ≠ p)
  let new := routeGroups (x.sect 5) p
  let cap := (others.map fun o => if (s.part o).loaded then (s.part o).capMost else 0).foldl (· + ·) 0
  groupsFit other new && (placeLanes other new).isSome && decide (cap + leAt (x.sect 0xA) 4 2 ≤ 320)
    && (x.pairs.map (·.2)).all fun r => others.all (fun o => !(s.part o).claims.contains r && decide ((s.region r).part ≠ some o))
      && !(s.region r).agt.unusable

end Sys2Proof.Machine
end

