-- ==== Sys2Proof/Machine/ImageVerify.lean ====
section
/-!
DEFINITION. Checks of a model, DOFF or adapter image (R254 to R259, R262).
-/
namespace Sys2Proof.Machine

/-- Offset of the body, and the bytes the head takes, by KIND of transfer: containers, images, firmware. -/
def headBytes (kind : Nat) : Nat := if kind = 0 then 0x4000 else if kind = 2 then 0x1000 else 0x10000
/-- FLAGS of an image head: 0 SIGNED, 1 DOFF, 2 ADAPTER. -/
def imgFlag (bs : List Byte) (i : Nat) : Bool := (leAt bs 8 4).testBit i
/-- Step 1: R255, and the bytes R258 gives as zero. -/
def imgHeadOk (bs : List Byte) (kind total : Nat) : Bool :=
  decide (leAt bs 0 4 = 0x4C444F4D) && decide (leAt bs 4 2 = 1) && decide (leAt bs 8 4 ≤ 7) && !(imgFlag bs 1 && imgFlag bs 2)
    && decide (1 ≤ leAt bs 0xC 2) && decide (leAt bs 0xC 2 ≤ 512) && zeroAt bs 0xE 2 && decide (leAt bs 0x10 8 = total)
    && decide (0x10000 < total) && decide (1 ≤ leAt bs 0x18 1) && decide (leAt bs 0x18 1 ≤ 8) && decide (1 ≤ leAt bs 0x19 1)
    && decide (leAt bs 0x19 1 ≤ 8) && zeroAt bs 0x1A 2 && zeroAt bs 0x28 8 && zeroAt bs 0xB0 848
    && (imgFlag bs 1 || imgFlag bs 2 || zeroAt bs 0x70 64)
    && (if imgFlag bs 0 then zeroAt bs 0xD88D 0x2773 else zeroAt bs 0xC400 0x3C00)
    && decide (kind = if imgFlag bs 1 then 4 else if imgFlag bs 2 then 3 else 1)
/-- Step 5 on the unit table (R256); an adapter has one unit per layer, of 4-bit or 8-bit factors (R262). -/
def unitsOk (bs : List Byte) : Bool :=
  let n := leAt bs 0xC 2
  let total := leAt bs 0x10 8
  let us := imgUnits bs
  let o := fun i => 0x400 + 96 * i
  (List.range n).all (fun i => zeroAt bs (o i + 3) 1 && zeroAt bs (o i + 0x14) 4 && (imgFlag bs 1 || zeroAt bs (o i + 12) 8)
      && decide (leAt bs (o i) 1 ≤ 4) && decide (leAt bs (o i + 2) 1 ≤ 7) && decide (leAt bs (o i + 2) 1 ≠ 6))
    && (us.all fun u => decide (u.off % 64 = 0) && decide (0x10000 ≤ u.off) && decide (u.off < total) && decide (u.base % 2 = 0) && decide (u.len % 2 = 0)
      && decide (u.kind = 4 ↔ imgFlag bs 2) && decide (u.index = 0xFF ↔ u.kind = 1 ∨ u.kind = 3))
    && ((us.zip (us.drop 1)).all fun x => decide (x.1.off < x.2.off))
    && (!imgFlag bs 2 || (distinct (us.map (·.index)) && us.all fun u => decide (u.wid = 3) || decide (u.wid = 7)))
    && zeroAt bs (o n) (96 * (512 - n))
/-- Bytes of a segment: the count table and the used bursts, a multiple of 64, so that no gap follows (R256, R257). -/
def segLength (bs : List Byte) (off n : Nat) : Nat :=
  countBytes n + 64 * (List.range n).foldl (fun a j => a + segCount bs off j) 0
/-- Cores of the image's rectangle. -/
def imgCores (bs : List Byte) : Nat := 1024 * leAt bs 0x18 1 * leAt bs 0x19 1
/-- Step 7 for a unit all of whose bytes are there: digest, length and counts (R256, R257). -/
def segOk (bs : List Byte) (u : WUnit) : Bool :=
  let n := imgCores bs
  let len := segLength bs u.off n
  decide (len = u.size) && decide (dig ((bs.drop u.off).take len) = u.digest) && zeroAt bs (u.off + 2 * n) (countBytes n - 2 * n)
    && (List.range n).all fun i => decide (segCount bs u.off i ≤ u.len)
/-- Step 8. -/
def imgBodyOk (bs : List Byte) : Bool := decide (dig (bs.drop 0x10000) = leAt bs 0x30 64)

/-- A unit fits the loaded layout (R256, R259): units of a DOFF image against the pointer table, of a model image against
the areas, of an adapter against the slots. -/
def Part.unitFits (x : Part) (kind : Nat) (u : WUnit) : Bool :=
  if kind = 4 then
    x.ptrs.any fun e => decide (e.kind = u.kind) && decide (e.index = u.index) && decide (e.wid = u.wid) && decide (e.len = u.len)
      && decide (e.home = u.base)
  else if kind = 3 then
    let a := (x.area 2 0).getD (0, 0)
    decide (u.index < x.layers) && decide (u.base + u.len ≤ a.2 / max 1 (x.adaptSlots / 256))
  else
    let a := (x.area (if u.kind ≤ 1 then 0 else 1) 0).getD (0, 0)
    decide (u.base + u.len ≤ a.2) && (decide (u.kind ≠ 0) || decide (u.index < x.layers))
/-- Step 3 for an image addressed to a partition (R259): what it applies to, and each unit against the layout. -/
def Part.imageFits (x : Part) (bs : List Byte) (kind : Nat) : Bool :=
  (if kind = 1 then
      decide (x.state = .loading) && decide (imgMeasure bs = x.model) && decide (leAt bs 0x20 4 = ((x.area 0 0).getD (0, 0)).2)
        && decide (leAt bs 0x24 4 = ((x.area 1 0).getD (0, 0)).2)
    else x.loaded && decide (leAt bs 0x70 64 = x.model))
    && decide (leAt bs 0x18 1 = x.rows) && decide (leAt bs 0x19 1 = x.cols) && (imgUnits bs).all (x.unitFits kind)
/-- No vacant core has a non-zero count (R257). -/
def State.vacantOk (s : State) (p : Nat) (bs : List Byte) : Bool :=
  (imgUnits bs).all fun u => (List.range (s.part p).coreCount).all fun i =>
    decide (segCount bs u.off i = 0) || !(s.core (s.partCore p i)).vacant

end Sys2Proof.Machine
end

