-- ==== Sys2Proof/Machine/Transfers.lean ====
section
/-!
DEFINITION. A load from the verified container to READY, partial containers, and stored containers (R191 to R195, R212,
R216, R220, R249, R260, R261, R478).
-/
namespace Sys2Proof.Machine

/-! ### Standby regions (R212) -/

/-- The weights and draft weights areas of each protected region go into the vaults of its standby region. -/
def State.copyStandby (s : State) (p : Nat) : State :=
  ((s.part p).areas.filter fun a => decide (a.1 ≤ 1)).foldl (fun s a => s.standbyRange p a.2.2.1 a.2.2.2) s
/-- Reserve the standby regions of the configuration in force and let the others go. -/
def State.reserveStandby (s : State) (p : Nat) : State :=
  let old := (s.part p).standby
  let new := (s.part p).pairs.map (·.2)
  let s := (old.filter fun r => !new.contains r).foldl (fun s r => if (s.region r).part = some p then s else s.freeRegion r) s
  let s := new.foldl (fun s r => (s.updRegion r fun g => { g with agt := { g.agt with standby := true } }).askPower r) s
  s.updPart p fun x => { x with standby := new }

/-! ### Loading (R194) -/

/-- Step 1 of R194: the partition holds its configuration and its regions, and enters LOADING. -/
def State.commitLoad (s : State) (p : Nat) (bs : List Byte) : State :=
  let q := headRect bs
  let signed := headFlag bs 2
  let cfg := sectionsOf bs
  let s := s.updPart p fun x =>
    { x with state := .loading, last := stOk, alt := 0, signed := signed, debug := headFlag bs 0, row0 := q.1, col0 := q.2.1
             rows := q.2.2.1, cols := q.2.2.2, errCheck := 0, errType := 0, digest := confDigest bs
             signer := signerOf bs 0x1000 signed, model := leAt bs 0xF0 64, mins := [leAt bs 0x20 4, leAt bs 0x24 4, leAt bs 0x28 4]
             defect := leAt bs 0x70 64, cfg := cfg, placed := false, epoch := 0, ptrs := [], ptrsB := [], step := 0, energy := 0 }
  let s := s.updPart p fun x =>
    { x with powCap := leAt (x.sect 0xA) 4 2
             hazMask := if x.debug then BitVec.ofNat 32 (Config.hazardMask (x.sect 0xD)) else 0 }
  let rs := rectRegions q
  let s := rs.foldl (fun s r => (s.updRegion r fun g => { g with part := some p }).askPower r) s
  (s.reserveStandby p).activateRegions (rs ++ (s.part p).pairs.map (·.2))
/-- KV state areas read zero (R237). -/
def Vault.clearArea (v : Vault) (a n : Nat) : Vault := v.copyArea Vault.reset a n
/-- Steps 2 to 5 of R194, once every region is powered. -/
def State.continueLoad (s : State) (p : Nat) : State :=
  let x := s.part p
  if x.state ≠ .loading ∨ x.placed ∨ (s.allRegions p).any (fun r => !pwrUp (s.region r).pwr.state) then s
  else
    let rs := s.partRegions p
    let s := rs.foldl State.wakeRegion s
    let s := rs.foldl (fun s r => (List.range 1152).foldl (fun s i => s.updCore (1152 * r + i) fun k => { k with pad := [], shadow := [] }) s) s
    let s := (rs ++ x.standby).foldl State.writeRemap s
    let s := (s.setSeams).applySections p
    let s := (x.areas.filter fun a => decide (a.1 = 6)).foldl (fun s a => rs.foldl (fun s r => (List.range 1152).foldl (fun s i =>
      s.setVault (1152 * r + i) ((s.vault (1152 * r + i)).clearArea a.2.2.1 a.2.2.2)) s) s) s
    s.updPart p fun x => { x with placed := true, exps := precEntries (x.sect 8) }

/-- Compiled exponents of a full image's unit: the partition's PREC entries of its layer (R70, R208). -/
def Part.compiledRefs (x : Part) (u : WUnit) : List Int :=
  if u.kind = 0 then (List.range 4).map fun g =>
    ((x.exps.find? fun e => decide (e.layer = u.index) && decide (e.group = g)).map (·.comp)).getD 0
  else if u.kind = 1 then [((x.exps.find? fun e => decide (e.group = 4)).map (·.comp)).getD 0]
  else []
/-- The model image of a load: stored on the spool, or a verified transfer to the partition (R260). -/
def State.modelSource (s : State) (p : Nat) : Option (List Byte) :=
  match s.findObj ObjKind.image (s.part p).model with
  | some o => some o.data
  | none => (s.xfers.find? fun x => x.verified && decide (x.kind = 1) && decide (x.target = 0) && decide (x.part = p)).map fun x => x.bytes x.total
/-- The transfers that make up a load report PHASE 2 and end (R328). -/
def State.loadedDone (s : State) (p : Nat) : State :=
  (s.xfers.filter fun x => x.verified && decide (x.kind ≤ 1) && decide (x.target = 0) && decide (x.part = p)).foldl (fun s x =>
    (s.imgDone x 0 2 stOk (if x.kind = 0 then (s.part p).digest else (s.part p).model)).dropXfer x.id) s
/-- WEIGHTS_LOADED: every unit of the image of MODEL_DIGEST is written and copied to the standby regions, and the
partition is READY, its regions powered (R194 steps 6 and 7, R221, R260); a repair of the load completes first (R432). An image that does not fit ends the load (R193, R259). -/
def execWeightsLoaded (p : Nat) (s : State) : Out :=
  if p > 15 then .fault .noSuchUnit
  else
    let x := s.part p
    match s.modelSource p with
    | none => .next s
    | some bs =>
      if x.state ≠ .loading ∨ !x.placed ∨ x.repair.isSome ∨ (s.allRegions p).any (fun r => !pwrUp (s.region r).pwr.state) then .next s
      else if !x.imageFits bs 1 then .next ((s.loadEnds p 3 0xFFFF stIncompat).setSeams)
      else if !s.vacantOk p bs then .next ((s.loadEnds p 7 0xFFFF stBadImage).setSeams)
      else
        let units := imgUnits bs
        let s := s.imageRead x.model
        let s := units.foldl (fun s u => s.writeUnit p bs u (x.kindFirst u.kind + u.base)) s
        let s := (s.copyStandby p).updPart p fun x =>
          { x with state := .ready, ptrs := x.ptrsOf units x.model x.compiledRefs, wtDigest := x.model }
        let (s, kept) := if s.imageStored x.model then (s, true) else if !x.policy 1 then (s, false)
          else s.spoolPut (newObj .model x.model bs.length bs 0 0)
        .next ((s.updPart p fun x => { x with restore := kept }).loadedDone p)

/-! ### Partial containers (R219, R220, R249) -/

/-- PREC entries of a new section: those that change return to their compiled values, the others keep theirs (R220). Entries of one
layer and group correspond in their order (R208). -/
def mergeExps (old new : List ExpEntry) : List ExpEntry :=
  new.zipIdx.map fun (e, i) =>
    let same := fun (o : ExpEntry) => decide (o.layer = e.layer) && decide (o.group = e.group)
    match (old.filter same)[((new.take i).filter same).length]? with
    | some o => if o.wid = e.wid ∧ o.mxf = e.mxf ∧ o.nm1 = e.nm1 ∧ o.emax = e.emax ∧ o.comp = e.comp then o else e
    | none => e
/-- Steps 3 and 4 of R220: the pending sections are written, pads and credits start afresh, and the configuration digest becomes the
container's (R220, R221). -/
def State.applyPartial (s : State) (p : Nat) : State :=
  let x := s.part p
  let prec := x.pend.any fun y => decide (y.typ = 8)
  let s := s.updPart p fun x =>
    { x with cfg := mergeSections x.cfg x.pend, pend := [], digest := x.pendDigest, signed := decide (x.pendSig ≠ 0)
             signer := x.pendSig, pendDigest := 0, pendSig := 0, tuned := false, last := stOk }
  let s := s.updPart p fun x =>
    { x with powCap := leAt (x.sect 0xA) 4 2, exps := if prec then mergeExps x.exps (precEntries (x.sect 8)) else x.exps
             hazMask := if x.debug then BitVec.ofNat 32 (Config.hazardMask (x.sect 0xD)) else 0 }
  let s := if x.pend.any fun y => decide (y.typ = 0xB) then
      let old := (s.part p).standby
      let s := s.reserveStandby p
      if (s.part p).standby = old then s else s.copyStandby p
    else s
  let s := (s.setSeams).applySections p
  (s.partRegions p).foldl (fun s r =>
    let c := (s.region r).clk
    if c.k > c.kCap then s.setRatio r c.kCap 2 else if 0 < c.k ∧ c.k < c.kFloor then s.setRatio r c.kFloor 2 else s) s
/-- A partition in APPLYING has what it applies written, and is READY again (R220, R221, R249). -/
def State.applyEnds (s : State) (p : Nat) : State :=
  match (s.part p).applying with
  | 0 => s
  | 1 =>
    let s := (s.updPart p fun x => { x with applying := 0 }).applyPartial p
    if (s.part p).held = 3 then s.releasePart p else s
  | n => s.applyTuning p (decide (n = 2))
/-- PARTIAL_APPLY: with no step in flight, no repair and no hold, the partition enters APPLYING, its requests held, and with the next
PARTIAL_APPLY the pending sections have been written (R220, R300). -/
def execPartialApply (p : Nat) (s : State) : Out :=
  if p > 15 then .fault .noSuchUnit
  else
    let x := s.part p
    if x.state ≠ .ready ∨ x.pend = [] ∨ x.phase ≠ .none ∨ x.repair.isSome ∨ x.applying > 1 then .next s
    else if x.applying = 0 then .next (if x.held = 0 then (s.updPart p fun x => { x with applying := 1 }).holdPart p 3 else s)
    else .next (s.applyEnds p)

/-! ### Steps 3 to 11 of R192 -/

/-- A failure: step, section type, status. -/
abbrev Fail := Nat × Nat × Nat
/-- Guard of a step. -/
def failIf (c : Bool) (f : Fail) : Option Fail := if c then some f else none
/-- Step 6 where the head tells enough: a partial names its base's map, and a head that names the device's own map
passes; any other is judged with its SLUB section at hand (R213). -/
def Part.defectOk (x : Part) (bs : List Byte) : Bool := !headFlag bs 1 || decide (leAt bs 0x70 64 = x.defect)
/-- Steps 3 to 6 on a head for partition p. -/
def State.headFault (s : State) (p : Nat) (bs : List Byte) (stored own : Bool) : Option Fail :=
  let x := s.part p
  (failIf (!s.versionsOk bs || (!stored && !x.baseOk bs)) (3, 0xFFFF, stIncompat)).or
    ((failIf (!stored && !s.placeOk p bs own) (4, 0xFFFF, stBusy)).or
      (((x.tableFault bs stored).map fun t => (5, t.2, t.1)).or
        (failIf (!stored && !x.defectOk bs) (6, 0xFFFF, stIncompat))))
/-- Step 7 on the sections `at_` says are complete, then nothing (R192). -/
def sectFault (bs : List Byte) (complete : SecEntry → Bool) : Option Fail :=
  ((secEntries bs).find? fun e => complete e && decide (dig ((bs.drop e.off).take e.len) ≠ e.digest)).map fun e => (7, e.typ, stBadImage)
/-- Step 8; a gap between sections that is not zero fails it too, with no section type (DESIGN CHOICE, log 229: R188 requires the zeros,
and R192 gives no step). -/
def bodyFault (bs : List Byte) : Option Fail :=
  failIf (decide (dig (bs.drop 0x4000) ≠ leAt bs 0x30 64) || !gapsZero bs (secEntries bs)) (8, 0xFFFF, stBadImage)
/-- The sections a partition holds with a container: its own, or a partial's over the loaded ones. -/
def Part.newCfg (x : Part) (bs : List Byte) : List Section :=
  if headFlag bs 1 then mergeSections x.cfg (sectionsOf bs) else sectionsOf bs
/-- Step 9. -/
def Part.bodyStruct (x : Part) (bs : List Byte) : Option Fail :=
  (structAll x (x.newCfg bs) (headRect bs) (headFlag bs 0)).map fun t => (9, t, stBadImage)
/-- Step 6 with the SLUB section at hand: a full container against the device's map, a partial against its base's (R213). -/
def State.mapOk (s : State) (p : Nat) (bs : List Byte) : Bool :=
  let x := s.part p
  if headFlag bs 1 then x.defectOk bs
  else
    let y := x.withSections (sectionsOf bs) 0
    s.slubsOk (headRect bs) (y.sect 0xC) (y.sect 2) && decide (dig (y.sect 0xC) = leAt bs 0x70 64)
/-- Steps 10 and 11. -/
def State.commitFault (s : State) (p : Nat) (bs : List Byte) (own : Bool) : Option Fail :=
  let x := s.part p
  let y := x.withSections (x.newCfg bs) (if headFlag bs 1 then x.alt else 0)
  (failIf (!s.resourcesOk p y) (10, 0xFFFF, stNoRoom)).or
    ((failIf (!s.placeOk p bs own) (11, 0xFFFF, stBusy)).or
      (failIf (!s.mapOk p bs) (11, 0xC, stIncompat)))
/-- The commit after step 11: a full container loads, a partial waits for the steps in flight, and one that arrives while
a tuning slot is named becomes the tuning sections (R194, R220, R249). -/
def State.commitContainer (s : State) (p : Nat) (bs : List Byte) : State :=
  if !headFlag bs 1 then (s.commitLoad p bs).continueLoad p
  else if (s.part p).tuneSlot.isSome then
    s.updPart p fun x => { x with tune := sectionsOf bs, tuneDigest := confDigest bs, last := stOk, errCheck := 0, errType := 0 }
  else
    s.updPart p fun x =>
      { x with pend := mergeSections x.pend (sectionsOf bs), pendDigest := confDigest bs
               pendSig := signerOf bs 0x1000 (headFlag bs 2), last := stOk, errCheck := 0, errType := 0 }

/-- Load a stored container into a partition (R478): the failure, or the state after the commit. -/
def State.loadStored (s : State) (p digest : Nat) : Except Fail State :=
  match s.findObj (fun k => decide (k = .bitstream)) digest with
  | none => .error (0, 0xFFFF, if s.spl.objs.any fun o => decide (o.kind = .bitstream) && decide (o.digest = digest) then stBadImage else stGone)
  | some o =>
    let bs := o.data
    let f := (s.headFault p bs false false).or
      ((failIf (!s.mapOk p bs) (6, 0xC, stIncompat)).or
        ((if headFlag bs 1 then (s.part p).bodyStruct bs else none).or (s.commitFault p bs false)))
    match f with
    | some e => .error e
    | none => .ok (s.commitContainer p bs)
/-- LOAD_STORED: the digest names a bit-stream on the spool (R323, R478). -/
def execLoadStored (m : Msg) (digest : Nat) (s : State) : Out :=
  s.onPart m 1 64 true fun _ s =>
    match s.loadStored m.part digest with
    | .ok s => (s, (stOk, []))
    | .error (check, typ, status) =>
      (s.updPart m.part fun x => { x with last := status, errCheck := check, errType := typ }, (status, []))

/-! ### Unloading (R195) -/

/-- A partition's transfers end with it. -/
def State.endTransfers (s : State) (p : Nat) : State :=
  (s.xfers.filter fun x => decide (x.target = 0) && decide (x.part = p)).foldl (fun s x =>
    if s.xfers.any fun y => decide (y.id = x.id) then s.xferFails x 0 0 stAborted else s) s
/-- The unload itself: a stop as under an abort, vaults zero-filled, regions and resources released. -/
def State.unloadPart (s : State) (p : Nat) : State :=
  let s := (((s.partEvent p .unload).stopWork p).untune p).loseChunks p
  let rs := s.allRegions p
  let s := (s.endTransfers p)
  let s := ((rs.foldl State.zeroVaults s).freePart p).updPart p fun x => { x with last := stOk }
  (s.setSeams).activateRegions rs
/-- UNLOAD with FORCE `force` (R195, R323). -/
def State.unload (s : State) (m : Msg) (force : Bool) : Out :=
  s.onPart m 2 8 true fun _ s =>
    let x := s.part m.part
    let busy := s.partReqs m.part fun r => decide (r.state.code ≤ 4)
    if x.state = .empty then (s.updPart m.part fun x => { x with last := stIncompat }, (stIncompat, []))
    else if x.state ≠ .ready ∧ x.state ≠ .down ∧ x.state ≠ .applying ∨ (!force ∧ !busy.isEmpty) then
      (s.updPart m.part fun x => { x with last := stBusy }, (stBusy, []))
    else (s.unloadPart m.part, (stOk, []))
/-- UNLOAD (R195): refused while a request is in QUEUED, INGEST, SPIN, HELD or PAUSED. -/
def execUnload (m : Msg) (s : State) : Out := s.unload m false
/-- UNLOAD with FORCE 1 (R195). -/
def execForcedUnload (m : Msg) (s : State) : Out := s.unload m true

end Sys2Proof.Machine
end

