-- ==== Sys2Proof/Machine/Faults.lean ====
section
/-!
DEFINITION. Faults, re-runs, live repair, agents and aborts (R108, R122, R129 to R131, R203, R412 to R421, R428 to R430).
-/
namespace Sys2Proof.Machine

/-- Leave out of the step in flight the requests a lost page has sent away (R248): the batch and its lists follow. -/
def State.thinStep (s : State) (p : Nat) : State :=
  let x := s.part p
  let keep := x.items.filter fun it =>
    let r := s.req it.idx
    r.used && decide (if x.ingest then r.committed = it.pos ∨ (x.items.any fun y => decide (y.idx = it.idx) && decide (y.pos = r.committed))
      else r.state = .spin ∨ (r.state = .held ∧ r.before = .spin))
  if keep.length = x.items.length ∧ x.batchReqs = ((keep.map (·.idx)).eraseDups).length then s
  else
    let s := s.updPart p fun x => { x with items := keep, batch := keep.foldl (fun a y => a + y.w) 0, batchReqs := ((keep.map (·.idx)).eraseDups).length }
    let s := if x.ingest then s else s.writeWork p keep x.kvRounds
    s.writeAdapters p keep

/-- FAULT_STEP_ABANDON: a class that keeps the step from committing has been reported (R108, R122). The step is
abandoned; each core named takes a strike, an I-store strike reloads the core's program, lost KV pages follow R248 and
lost vaults declare their cores dead (R412). -/
def execFaultStepAbandon (p : Nat) (s : State) : Out :=
  if p < 16 then
    let x := s.part p
    if x.faults = [] ∨ (x.phase ≠ .running ∧ x.phase ≠ .replay) then .next s
    else
      let s := s.stopRun p
      let s := s.updPart p fun x => { x with phase := .fault, faults := [], wdogs := 0, freezeAt := none }
      let s := x.faults.foldl (fun s (cls, pos) =>
        if pos = 65536 then s
        else
          let s := s.strike p pos cls
          let c := s.physAt (pos % 256) (pos / 256)
          if s.strikeOf p cls = some 1 ∧ !(s.core c).dead then
            match s.coreIndex p c with
            | some i =>
              let k := (Core.reset).configure (s.part p).coreCfg i
              s.updCore c fun y => { y with istore := k.istore, entryIngest := k.entryIngest, entrySpin := k.entrySpin }
            | none => s
          else s) s
      let kv := (s.part p).bad.filter fun y => decide ((s.part p).kindAt y.2 = 3) || decide ((s.part p).kindAt y.2 = 6)
      let s := s.updPart p fun x => { x with bad := x.bad.filter fun y => !kv.contains y }
      let s := kv.foldl (fun s y => s.kvBurstLost p y.1 y.2) s
      let s := (s.thinStep p).vaultHealth p
      .next (s.settleHold p)
  else .fault .noSuchUnit

/-- FAULT_RERUN: the abandoned step runs again with its run number, up to 4 times; a fifth fault takes the partition
down (R414). Weight bursts are restored first (R415). `raised`: references that the abandoned run raised (R232). -/
def execFaultRerun (p : Nat) (s : State) (raised : List RhoRaise := []) : Out :=
  if p < 16 then
    let x := s.part p
    if x.phase ≠ .fault ∨ x.held ≠ 0 ∨ x.repair.isSome then .next s
    else if x.reruns ≥ 4 then .next (s.partDown p 6)
    else
      let s := s.restoreBursts p
      if (s.part p).phase ≠ .fault then .next s
      else
        let s := (s.raiseRefs p raised).updPart p fun x => { x with reruns := x.reruns + 1, repReruns := min 0xFFFF (x.repReruns + 1) }
        .next (s.rerun p)
  else .fault .noSuchUnit

/-- STEP_WATCHDOG: some core has not reached END within STEP_WDOG of the run's launch (R203): class 0x00 names the lowest
region short of END; the second in a row on a step takes the partition down (R414). -/
def execStepWatchdog (p : Nat) (s : State) : Out :=
  if p < 16 then
    let x := s.part p
    let short := (s.runners p).filter fun c => decide ((s.core c).run ≠ .ended)
    if x.phase ≠ .running ∨ short = [] ∨ s.clk.wtime < x.ranAt + usecs x.wdog then .next s
    else
      let r := regionOf (short.headD 0)
      let n := (short.filter fun c => decide (regionOf c = r)).length
      let s := s.raise (s.regionEv r 0x00 (sp [(0, 1, x.runNo), (4, 4, x.wdog), (8, 4, n)]))
      let s := (s.stopRun p).updPart p fun y => { y with phase := .fault, faults := [], wdogCnt := satInc y.wdogCnt, wdogs := y.wdogs + 1, freezeAt := none }
      if x.wdogs + 1 ≥ 2 then .next (s.partDown p 7) else .next (s.settleHold p)
  else .fault .noSuchUnit

/-- HEARTBEAT_SAMPLE: the agent of region r samples and clears the heartbeat bits (R413). `silent` lists the physical
cores whose issue stage has not set its bit; one that stays silent while its region executes 8,192 counts is dead. -/
def execHeartbeatSample (r : Nat) (silent : List Nat) (s : State) : Out :=
  if r < 64 then
    let now := (s.region r).net.exec
    .next ((s.liveCores r).foldl (fun s c =>
      let k := s.core c
      if k.run ≠ .running ∨ k.dead then s
      else if silent.contains c then (if now - k.beatAt ≥ 8192 then s.declareDead c 7 false else s)
      else s.updCore c fun k => { k with beat := false, beatAt := now }) s)
  else .fault .noSuchUnit

/-! ### Live repair (R416 to R418) -/

/-- Every region of a partition has stopped. -/
def State.stopped (s : State) (p : Nat) : Bool :=
  decide ((s.part p).phase ≠ .running) || (s.partRegions p).all fun r => !(s.region r).net.inFrame
/-- Steps 3 and 5 of R416 for one dead core: the remap entry and the moved cores' programs and router entries (R152, R162). -/
def State.shiftRow (s : State) (p c : Nat) : State :=
  let u := c / 72
  let row := c % 72 / 9
  let k := c % 9
  let s := (s.setRemap u row k).updCluster u fun x => { x with latStat := x.latStat ||| 0x10 }
  let g := (s.part p).coreCfg
  let moved := (List.range (8 - k)).map fun j => 72 * u + 9 * row + k + 1 + j
  let s := moved.foldl (fun s d => match s.coreIndex p d with
    | some i => s.updCore d fun y => y.configure g i
    | none => s) s
  let s := moved.foldl (fun s d =>
    let t := s.creditsOf d
    s.updCore d fun y => { y with creditInit := t, credit := t }) s
  s.raise (s.coreEv c 0x1A (sp [(0, 1, 0)]))
/-- A vault every burst of which is poisoned. -/
def Vault.allPoison (v : Vault) : Vault := { v with data := [], chk := (List.range (8 * 524288)).map fun i => (i, 0xFF) }
/-- Copy one vault's contents to another (R130, R131): a burst that is not correctable raises class 0x17. -/
def State.copyVault (s : State) (from_ to_ : Nat) : State :=
  let (s, bad) := s.portCopy from_ to_ 0 524288
  bad.foldl (fun s i => (s.coreEventIf false to_ 0x17 (sp [(0, 1, 1), (1, 1, 0), (4, 4, i)])).noteBad to_ i) s
/-- Step 4 of R416 for one dead core: contents move one column east, from column 7 down to the dead one (R130). -/
def State.copyRow (s : State) (c : Nat) (lost : Bool) : State :=
  let base := c / 9 * 9
  let k := c % 9
  let s := ((List.range (7 - k)).map fun j => base + 7 - j).foldl (fun s x => s.copyVault x (x + 1)) s
  if lost then s.setVault (c + 1) (s.vault (c + 1)).allPoison else s.copyVault c (c + 1)
/-- Step 6 of R416 for one dead core: its slub. -/
def State.repairSlub (s : State) (c cause : Nat) (lost : Bool) : State :=
  s.addSlub (mkSlub 1 (regionOf c) (c / 72 % 16) (posByte c) (2 + 16 * cause) lost.toNat 0 s.clk.wtime)

/-- The KV that lay in a lost vault (R418): every page of the core's group, and the requests whose state lay there. `c` is
the core that now holds the logical position. -/
def State.vaultKvLost (s : State) (p c : Nat) : State :=
  let s := match s.groupOf p (c / 72) with
    | some (g, h) =>
      let pages : List (Nat × Nat) := (s.partReqs p fun _ => true).flatMap fun i =>
        ((s.req i).pages.zipIdx.filter fun (x : Page × Nat) => x.1.resident && decide (x.1.g = g)).map fun (x : Page × Nat) => (i, x.2)
      pages.foldl (fun (s : State) (i, k) => if ((s.req i).pages[k]?.any Page.resident) then s.pageLost i k 0 h else s) s
    | none => s
  (s.partReqs p fun r => r.slot).foldl (fun s i =>
    if (s.req i).slot && Config.holdsState c 524288 i then s.pageLost i 0 0 0 else s) s

/-- Relaunch after a repair (R416 step 7, R435): registers, class 0x1A subkind 1 when a vault was restored, requests
released, the step in flight run again with its run number (R71); a tuning step is discarded (R249). -/
def State.endRepair (s : State) (p : Nat) (again : Bool) : State :=
  match (s.part p).repair with
  | none => s
  | some r =>
    let us := usSince r.since s.clk.wtime
    let (c, cause, lost) := r.dead.getLastD (0, 0, false)
    let anyLost := r.dead.any fun d => d.2.2
    let s := s.updPart p fun x =>
      { x with repair := none, repRegion := regionOf c, repCluster := c / 72 % 16, repCore := c % 72, repOrigin := cause, repVault := anyLost
               repairs := min 0xFFFF (x.repairs + r.dead.length), repLast := us % 2 ^ 32, repMax := max x.repMax us % 2 ^ 32 }
    let s := if anyLost || lost then s.raise (s.partEv p 0x1A (sp [(0, 1, 1), (2, 4, us)])) else s
    if (s.part p).state ≠ .ready then s
    else
      let s := s.thinStep p
      let s := if (s.part p).held = 1 then s.releasePart p else s
      if !again || (s.part p).held ≠ 0 then s
      else if (s.part p).phase = .frozen ∨ (s.part p).phase = .fault ∨ (s.part p).phase = .lists then
        (if (s.part p).tuneRun ≠ 0 then s.dropStep p else s.rerun p)
      else s

/-- LIVE_REPAIR: the steward accepts the declarations of partition p (R416 steps 1 to 3). Requests are held and, with a
run in progress, a freeze is ordered (what is being applied is written first, R221); once every region has stopped, the row shifts are applied. -/
def execLiveRepair (p : Nat) (s : State) : Out :=
  if p < 16 then
    match (s.part p).repair with
    | none => .next s
    | some r =>
      if r.stage ≠ 0 ∨ s.clockDown p then .next s
      else
        let s := (s.applyEnds p).barrierEnds p
        let s := if (s.part p).state = .ready ∧ (s.part p).held = 0 then s.holdPart p 1 else s
        if !s.stopped p then
          let far := ((s.partRegions p).map fun q => (s.region q).net.frameNo).foldl max 0
          .next (s.updPart p fun x => if x.freezeAt = none then { x with freezeAt := some (far + 2) } else x)
        else
          let s := r.dead.foldl (fun s d => s.shiftRow p d.1) s
          .next (s.updPart p fun x =>
            { x with repair := some { r with stage := 1 }, freezeAt := none, phase := if x.phase = .running then .frozen else x.phase })
  else .fault .noSuchUnit

/-- Shift the row of a dead core that has its spare still: one declared after the freeze is repaired in it (R417). -/
def State.shiftDue (s : State) (p c : Nat) : State :=
  if remapRow (s.cluster (c / 72)).remap (c % 72 / 9) = 15 then s.shiftRow p c else s
/-- Steps 3 to 6 of R416 and the KV part of R418: row shifts not yet made, copies, emptied pads and queues, slubs; queued vault
operations complete before the copies (R102, R131). What is
lost is then restored (stage 2), or the partition goes down; a load writes every weight afterwards (R432). -/
def State.repairCopied (s : State) (p : Nat) (r : Repair) (again : Bool) : State :=
  let new := r.dead.drop r.copied
  let s := new.foldl (fun s d => s.shiftDue p d.1) (s.emptyPart p)
  let s := new.foldl (fun s d => s.copyRow d.1 d.2.2) s
  let s := new.foldl (fun s d => s.repairSlub d.1 d.2.1 d.2.2) s
  let s := new.foldl (fun s d => if d.2.2 then s.vaultKvLost p (d.1 + 1) else s) s
  let s := s.updPart p fun x => { x with
    doff := if x.doff.inPlace && decide (x.doff.state ≠ 0) then
        { x.doff with state := 4, again := (x.doff.again ++ new.map fun (d : Nat × Nat × Bool) => d.1 / 72 * 8 + d.1 % 72 / 9).eraseDups } else x.doff }
  let x := s.part p
  let kv := x.bad.filter fun y => decide (x.kindAt y.2 = 3) || decide (x.kindAt y.2 = 6)
  let s := kv.foldl (fun s y => s.kvBurstLost p y.1 y.2) (s.updPart p fun x => { x with bad := x.bad.filter fun y => !kv.contains y })
  let need := decide ((s.part p).state ≠ .loading) && decide ((s.part p).state ≠ .down)
    && (r.dead.any (fun d => d.2.2) || (s.part p).bad.any fun y => decide ((s.part p).kindAt y.2 ≤ 1))
  if need then
    if (s.part p).policy 1 && (s.part p).restore then s.updPart p fun x => { x with repair := some { r with stage := 2, copied := r.dead.length } }
    else s.downCauseAt p 5
  else s.endRepair p again

/-- REPAIR_COPY_DONE: the row bus copies of a repair complete (R130, R131, R416 steps 4 to 7). -/
def execRepairCopyDone (p : Nat) (s : State) : Out :=
  if p < 16 then
    match (s.part p).repair with
    | none => .next s
    | some r => if r.stage ≠ 1 ∨ s.clockDown p then .next s else .next (s.repairCopied p r true)
  else .fault .noSuchUnit

/-- Write the weights of the logical core at c again from the images (R418 step 1); none where a burst is not to be had. -/
def State.restoreCore (s : State) (p c : Nat) : Option State :=
  let es := (s.part p).slots
  es.foldl (fun (a : Option State) e => a.bind fun s =>
    (List.range e.len).foldl (fun (a : Option State) k => a.bind fun s =>
      (s.imageBurst p c (e.base + k)).map fun bs => s.setVault c ((s.vault c).write (e.base + k) bs)) (some s)) (some s)
/-- Adapter slots after the loss of a vault (R418): one whose image is stored is restored, another is FREE and its bound
requests end FAILED with INTERNAL. -/
def State.restoreAdapters (s : State) (p c : Nat) : State :=
  let x := s.part p
  x.adapt.foldl (fun s (k, a) =>
    match s.findObj ObjKind.image a.image, s.coreIndex p c with
    | some o, some i => (imgUnits o.data).foldl (fun s u => s.writeAdapter p o.data u k [i]) s
    | _, _ =>
      let s := s.updPart p fun x => { x with adapt := x.adapt.filter fun y => decide (y.1 ≠ k) }
      s.endMany ((s.partReqs p fun r => r.live && decide (r.par.adapter = k)).map fun i => (i, ReqState.failed, stInternal))) s

/-- VAULT_RESTORE_DONE: lost weights have been restored from the spool, and the partition relaunches (R418). A core declared
dead meanwhile is repaired first (R417). -/
def execVaultRestoreDone (p : Nat) (s : State) : Out :=
  if p < 16 then
    match (s.part p).repair with
    | none => .next s
    | some r =>
      if r.stage ≠ 2 then .next s
      else if r.copied < r.dead.length then .next (s.updPart p fun x => { x with repair := some { r with stage := 1 } })
      else
        let lost := (r.dead.filter fun d => d.2.2).map fun d => d.1 + 1
        let got := lost.foldl (fun (a : Option State) c => a.bind fun s => (s.restoreCore p c).map fun s => s.restoreAdapters p c) (some s)
        match got with
        | none => .next (s.downCauseAt p 5)
        | some s =>
          let s := lost.foldl (fun s c => s.setVault c { s.vault c with chk := [] }) s
          let s := s.updPart p fun x => { x with bad := x.bad.filter fun y => !lost.contains y.1 }
          let s := (s.part p).ptrs.foldl (fun s e => s.imageRead e.image) (s.restoreBursts p)
          if (s.part p).state = .down then .next s else .next (s.endRepair p true)
  else .fault .noSuchUnit

/-! ### Regions that become unusable (R409, R419) -/

/-- A region is unusable: slub of KIND 6, and partitions that own or reserve it go down with cause 4. -/
def State.regionUnusable (s : State) (r cause : Nat) : State :=
  if (s.region r).agt.unusable then s
  else
    let s := s.addSlub (mkSlub 6 r 0xFF 0xFF (originOf cause) 0 0 s.clk.wtime)
    let s := s.updRegion r fun g => { g with agt := { g.agt with unusable := true } }
    partNums.foldl (fun s p =>
      if (s.region r).part = some p ∨ (s.part p).standby.contains r then s.downCauseAt p 4 else s) s

/-- AGENT_HEARTBEAT_MISS: the agent of region r has missed 3 heartbeats and is restarted once (R420): the step is
abandoned to a fault re-run and the region emptied, and region agent firmware not yet confirmed reverts (R447). A second time within 1 h makes the region unusable. -/
def execAgentHeartbeatMiss (r : Nat) (s : State) : Out :=
  if r < 64 then
    let now := s.clk.wtime
    let again := s.boot.restarted.any fun y => decide (y.1 = r) && decide (now ≤ y.2 + secs 3600)
    let s := s.updRegion r fun g => { g with agt := { g.agt with hbMiss := min 0xFF (g.agt.hbMiss + 3) } }
    let s := s.agentFault r
    if again then .next (s.regionUnusable r 13)
    else
      let s := { s with boot := { s.boot with restarted := (s.boot.restarted.filter fun (y : Nat × Nat) => decide (y.1 ≠ r)) ++ [(r, now)] } }
      match (s.region r).part with
      | none => .next s
      | some p =>
        let s := if (s.part p).phase = RunPhase.none then s
          else (s.stopRun p).updPart p fun x => { x with phase := .fault, faults := [], freezeAt := none }
        .next (s.emptyRegion r)
  else .fault .noSuchUnit

/-! ### Aborts (R428, R429) -/

/-- A repair in progress completes within an abort (R428 step 5, R432); a vault restore continues past it. -/
def State.finishRepair (s : State) (p : Nat) : State :=
  match (s.part p).repair with
  | none => s
  | some r =>
    if r.stage = 2 then s
    else
      s.repairCopied p { r with stage := 1 } false
/-- Power-ons of a partition's regions that have not begun to ramp fail with cause 6 (R384, R428). -/
def State.dropOns (s : State) (p : Nat) : State :=
  let mine := s.pwr.ons.filter fun o => decide ((s.region o.region).part = some p) && decide ((s.region o.region).pwr.state ≠ 4)
  let s := { s with pwr := { s.pwr with ons := s.pwr.ons.filter fun o => !mine.contains o } }
  mine.foldl (fun s o =>
    let s := s.updRegion o.region fun g => { g with pwr := { g.pwr with cause := 6 } }
    s.raise (s.regionEv o.region 0x22 (sp [(1, 1, 6), (2, 2, (s.region o.region).pwr.tries)]))) s
/-- Abort a partition: what is being applied to it is written first (R221). -/
def State.abortPart (s : State) (p : Nat) : State :=
  match (s.part p).state with
  | .empty => s
  | .receiving => s.loadEnds p 0 0 stAborted
  | .verifying => s.loadEnds p 0 0 stAborted
  | .loading => (s.dropOns p).loadEnds p 0 0 stAborted
  | .unloading => s
  | .down => s.dropOns p
  | _ =>
    let s := (((s.applyEnds p).stopWork p).untune p).partEvent p .abort
    let s := (s.finishRepair p).dropOns p
    if (s.part p).held = 4 then s.releasePart p else s

/-- Body of an ABORT reply: SCOPE and ELAPSED, a time within the bound of R428 that the spec leaves open. -/
def State.abortBody (s : State) (scope bound : Nat) : State × List Byte :=
  let (s, v) := s.draw
  (s, beBytes 1 scope ++ beBytes 3 0 ++ beBytes 4 (v % (bound + 1)))

/-- ABORT_PARTITION: ABORT with SCOPE 0 (R323, R428). -/
def execAbortPartition (m : Msg) (s : State) : Out :=
  s.onMsg m 8 1 8 true true fun _ s =>
    let s := s.abortPart m.part
    let (s, b) := s.abortBody 0 2000
    (s, some (stOk, b))

/-- Every host image transfer ends with ABORTED (R221, R428). -/
def State.abortXfers (s : State) : State :=
  s.xfers.foldl (fun s x =>
    if !x.verified && s.xfers.any fun y => decide (y.id = x.id) then s.xferFails x 0 0 stAborted else s) s
/-- Abort every partition and every transfer. -/
def State.abortAll (s : State) : State := (partNums.foldl State.abortPart s).abortXfers

/-- ABORT_DEVICE: ABORT with SCOPE 1 (R323, R428). -/
def execAbortDevice (m : Msg) (s : State) : Out :=
  s.onMsg m 8 1 8 true false fun _ s =>
    let s := s.abortAll
    let (s, b) := s.abortBody 1 10000
    (s, some (stOk, b))

/-! ### Stewards (R430, R432) -/

/-- STEWARD_FAILOVER: the active steward misses 3 heartbeats and the standby becomes active (R430). Image transfers are
lost, a head's reservation staying until its timeout (R221); a tuning step in flight is discarded (R249), steward firmware not yet
confirmed reverts (R447), and messages to the active steward without an ACK are due again (R182). -/
def execStewardFailover (s : State) : Out :=
  let t := s.boot.stw
  let a := t.active
  let other := if a = 0 then t.st1 else t.st0
  if t.none ∨ other ≠ 2 then .next s
  else
    let t := if a = 0 then { t with st0 := 3, st1 := 1, active := 1 } else { t with st1 := 3, st0 := 1, active := 0 }
    let s := { s with boot := { s.boot with stw := t } }
    let s := s.updTree fun t => { t with acks := t.acks.map fun a =>
      if a.typ = 6 ∧ a.dest = 0x0100 then { a with due := s.clk.wtime } else a }
    let s := { s with xfers := s.xfers.filterMap fun (x : Xfer) =>
      if x.verified then some x
      else if x.holds then some { x with data := [], headOk := false } else none }
    .next ((partNums.foldl (fun (s : State) p => if (s.part p).tuneRun ≠ 0 then s.dropStep p else s) s).fwFault 1)

end Sys2Proof.Machine
end

