-- ==== Sys2Proof/Machine/EthPhys.lean ====
section
/-!
DEFINITION. Ports, optical engines, the bypass, forwarding and the answers of the interfaces (R304 to R310, R316, R329,
R332).
-/
namespace Sys2Proof.Machine

/-! ### Modes and links (R304, R305, R332) -/

/-- Mode code of port 0 A or 1 B. -/
def Eth.mode (e : Eth) (port : Nat) : Nat := e.cfg.toNat / 8 ^ port % 8
/-- Interfaces per port of a mode (R304). -/
def modeIfs (m : Nat) : Nat := [1, 2, 8, 0].getD m 0
/-- A steward is in service: the edge logic runs (R437). -/
def State.edgeUp (s : State) : Bool := decide (s.boot.stw.st0 = 1) || decide (s.boot.stw.st1 = 1)
/-- An interface's link can train: its engine and its port's reference are there, the bypass is THROUGH and its
port's mode has it (R304, R307, R363). -/
def State.canTrain (s : State) (i : Nat) : Bool :=
  s.edgeUp && (decide (i = 16) ||
    (decide (i < 16) && s.eth.oeReady.getLsbD (i / 8) && !s.clk.ethRetry.getLsbD (i / 8) && !s.eth.bypass && decide (i % 8 < modeIfs (s.eth.mode (i / 8)))))

/-- LINK_DOWN: the link of interface i goes down (R332). -/
def execLinkDown (i : Nat) (s : State) : Out := if i ≤ 16 then .next (s.linksDown [i]) else .fault .noSuchUnit
/-- LINK_UP: the link of interface i has trained (R305, R332). -/
def execLinkUp (i : Nat) (s : State) : Out :=
  if i ≤ 16 then
    if s.eth.link.getLsbD i ∨ !s.canTrain i then .next s
    else .next ({ s with eth := { s.eth with link := s.eth.link ||| BitVec.ofNat 17 (2 ^ i) } }.hostEv 1 i 0)
  else .fault .noSuchUnit

/-- Both ports run, in different modes, with FWD_EN set: forwarding stops and class 0x3F subkind 5 is raised (R309). -/
def State.settleModes (s : State) : State :=
  let bad := decide (s.eth.mode 0 ≠ s.eth.mode 1) && decide (s.eth.mode 0 ≠ 3) && decide (s.eth.mode 1 ≠ 3)
  let was := s.eth.mismatch
  let s := { s with eth := { s.eth with mismatch := bad } }
  if bad && !was && s.eth.cfg.getLsbD 17 then s.hostEv 5 0 0 else s

/-- Network configuration is stored in both boot flash start records (R305). -/
def State.storeNet (s : State) : State := { s with boot := { s.boot with netRec := true } }
/-- Write ETH_CFG (R333): a port whose mode changes takes its links down (R304). -/
def State.writeEthCfg (_ : Session) (v : Word) (s : State) : State × Nat :=
  if v.toNat % 8 > 3 ∨ v.toNat / 8 % 8 > 3 then (s, stNoRoom)
  else
    let old := s.eth
    let s := { s with eth := { s.eth with cfg := v &&& 0x000FFF3F }.pfc }
    let s := [0, 1].foldl (fun s p => if old.mode p = s.eth.mode p then s else s.linksDown (portIfs p)) s
    (s.settleModes.storeNet, stOk)
/-- ETH_MODE_CHANGE: a REG_WRITE of ETH_CFG. The links of a port whose mode changes go down; they come up again by
LINK_UP within 500 ms (R304). -/
def execEthModeChange (m : Msg) (v : Word) (s : State) : Out := s.onRegWrite m 0x50000 fun h s => s.writeEthCfg h v

/-! ### The bypass (R307) -/

/-- Position the bypass takes: BYPASS with neither engine ready or FORCE 1, else THROUGH. A change drops every link of both
connectors and raises class 0x3F subkind 4. -/
def State.settleBypass (s : State) : State :=
  let b := decide (s.eth.oeReady = 0) || decide (s.eth.force = 1)
  if b = s.eth.bypass then s
  else
    let s := s.linksDown (List.range 16)
    { s with eth := { s.eth with bypass := b } }.hostEv 4 0 0
/-- Write ETH_BYP (R333): FORCE. -/
def State.writeBypass (_ : Session) (v : Word) (s : State) : State × Nat :=
  let f := v.toNat / 8 % 4
  if f = 3 then (s, stNoRoom) else ({ s with eth := { s.eth with force := f } }.settleBypass, stOk)
/-- BYPASS_FORCE: a REG_WRITE of ETH_BYP. -/
def execBypassForce (m : Msg) (v : Word) (s : State) : Out := s.onRegWrite m 0x50008 fun h s => s.writeBypass h v

/-! ### Optical engines (R308) -/

/-- Set bit p of two. -/
def setBit2 (x : BitVec 2) (p : Nat) (b : Bool) : BitVec 2 :=
  if b then x ||| BitVec.ofNat 2 (2 ^ p) else x &&& ~~~(BitVec.ofNat 2 (2 ^ p))
/-- An engine is powered: present, checked and no removal requested. -/
def State.engineOn (s : State) (p : Nat) : State :=
  if s.eth.present.getLsbD p && s.eth.oeGood.getLsbD p && !s.eth.req.getLsbD p && s.edgeUp then
    { s with eth := { s.eth with oeReady := setBit2 s.eth.oeReady p true, safe := setBit2 s.eth.safe p false } }.settleBypass
  else s
/-- An engine is powered down: its links drop. -/
def State.engineOff (s : State) (p : Nat) : State :=
  let s := s.linksDown (portIfs p)
  { s with eth := { s.eth with oeReady := setBit2 s.eth.oeReady p false } }.settleBypass
/-- Write ETH_OE_CTL (R308, R333): a REQ that rises powers its engine down and sets SAFE; one that falls brings it back. -/
def State.writeOeCtl (_ : Session) (v : Word) (s : State) : State × Nat :=
  ([0, 1].foldl (fun s p =>
    let new := v.getLsbD p
    if new = s.eth.req.getLsbD p then s
    else
      let s := { s with eth := { s.eth with req := setBit2 s.eth.req p new } }
      if new then
        let s := s.engineOff p
        { s with eth := { s.eth with safe := setBit2 s.eth.safe p true } }
      else s.engineOn p) s, stOk)
/-- OPTICAL_ENGINE_REMOVAL_REQUEST: a REG_WRITE of ETH_OE_CTL. -/
def execOpticalEngineRemovalRequest (m : Msg) (v : Word) (s : State) : Out :=
  s.onRegWrite m 0x5000C fun h s => s.writeOeCtl h v
/-- OPTICAL_ENGINE_REQ_CLEAR: a REG_WRITE of ETH_OE_CTL with REQ cleared: the engine's links may come up. -/
def execOpticalEngineReqClear (m : Msg) (v : Word) (s : State) : Out :=
  s.onRegWrite m 0x5000C fun h s => s.writeOeCtl h v
/-- OPTICAL_ENGINE_REMOVED: PRESENT falls. Links still up drop at once, and the event is recorded. -/
def execOpticalEngineRemoved (port : Nat) (s : State) : Out :=
  if port < 2 then
    if !s.eth.present.getLsbD port then .next s
    else
      let s := s.engineOff port
      .next ({ s with eth := { s.eth with present := setBit2 s.eth.present port false, oeGood := setBit2 s.eth.oeGood port false
                                          safe := setBit2 s.eth.safe port false } }.hostEv 3 (8 * port) 0)
  else .fault .noSuchUnit
/-- OPTICAL_ENGINE_INSERTED: the steward checks the engine's firmware under R446. An incompatible engine stays powered
down and raises class 0x3F subkind 6; another is powered once REQ is clear. -/
def execOpticalEngineInserted (port : Nat) (f : FwInfo) (s : State) : Out :=
  if port < 2 then
    if s.eth.present.getLsbD port then .next s
    else
      let good := s.deviceOk 5 f
      let s := { s with eth := { s.eth with present := setBit2 s.eth.present port true, oeGood := setBit2 s.eth.oeGood port good
                                            safe := setBit2 s.eth.safe port true } }.hostEv 3 (8 * port) 0
      .next (if good then s.engineOn port else s.hostEv 6 (8 * port) 0)
  else .fault .noSuchUnit

/-! ### Forwarding and flow control (R309, R316) -/

/-- The device's own MAC addresses: the factory base plus the interface number (R305). -/
def ownMac (a : Nat) : Bool := (List.range 17).any fun i => decide (a = (Config.factory 0 + i) % 2 ^ 48)
/-- Forwarding runs (R309, R333). -/
def State.forwards (s : State) : Bool :=
  s.eth.cfg.getLsbD 17 && !s.eth.cfg.getLsbD 18 && decide (s.eth.mode 0 = s.eth.mode 1) && decide (s.eth.mode 0 ≠ 3)
/-- FRAME_FORWARD: a frame from interface i (0 to 15) leaves by the other port's interface of the same number, unless it
is addressed to the device alone or comes from it. A priority the peer has paused waits in its egress queue (R309, R316). -/
def execFrameForward (i dst src prio : Nat) (s : State) : Out :=
  if i < 16 then
    let o := (i + 8) % 16
    let group := (dst / 2 ^ 40).testBit 0
    if !s.forwards ∨ !s.eth.link.getLsbD i ∨ !s.eth.link.getLsbD o ∨ ownMac src ∨ (ownMac dst ∧ !group) then .next s
    else if tget s.eth.paused 0 (8 * o + prio % 8) = 1 then
      .next { s with eth := { s.eth with egress := tupd s.eth.egress 0 (8 * o + prio % 8) (· + 1) } }
    else .next { s with eth := { s.eth with fwd := s.eth.fwd + 1 } }
  else .fault .noSuchUnit

/-- PFC_PAUSE_FRAME: a priority flow control frame at interface i: for each priority of `en` that PFC_EN honours, a pause
time (`on`) stops it and a time of 0 releases it, and then what waits leaves (R316). -/
def execPfcPauseFrame (i : Nat) (en on_ : BitVec 8) (s : State) : Out :=
  if i ≤ 16 then
    .next ((List.range 8).foldl (fun s n =>
      if en.getLsbD n && s.eth.pfcEn.getLsbD n then
        let k := 8 * i + n
        if on_.getLsbD n then { s with eth := { s.eth with paused := tset s.eth.paused 0 k 1 } }
        else
          let q := tget s.eth.egress 0 k
          { s with eth := { s.eth with paused := tset s.eth.paused 0 k 0, egress := tset s.eth.egress 0 k 0
                                       fwd := s.eth.fwd + BitVec.ofNat 32 q } }
      else s) s)
  else .fault .noSuchUnit

/-! ### Answers and addresses (R305) -/

/-- PROTOCOL_ANSWER: an ARP, neighbour discovery or echo request at an enabled interface is answered (R305). -/
def execProtocolAnswer (i : Nat) (tag : Option Nat) (s : State) : Out :=
  if i ≤ 16 then .next (if s.accepts i tag then { s with eth := { s.eth with answers := s.eth.answers + 1 } } else s)
  else .fault .noSuchUnit
/-- DHCPV4_AND_SLAAC: the management port takes the addresses offered to it, unless addresses are written (R305). -/
def execDhcpv4AndSlaac (ip4 : Word) (prefix4 : Nat) (ip6 : List Word) (s : State) : Out :=
  let f := s.iface 16
  if !s.eth.link.getLsbD 16 ∨ !f.en ∨ !f.dhcp ∨ prefix4 > 32 ∨ ip6.length ≠ 4 then .next s
  else
    let f := if f.man4 then f else { f with ip4 := ip4, prefix4 := prefix4 }
    let f := if f.man6 then f else { f with ip6 := ip6 }
    .next { s with eth := { s.eth with ifs := tset s.eth.ifs Iface.reset 16 f } }

/-! ### HELLO (R329) -/

/-- RELAY_EN of ETH_CFG. -/
def Eth.relayEn (e : Eth) : Bool := e.cfg.getLsbD 19
/-- HELLO_SEND: every 1 s the device sends HELLO from A0 and B0, while relay is enabled (R329). -/
def execHelloSend (s : State) : Out :=
  if !s.eth.relayEn ∨ s.clk.wtime < s.eth.helloAt + secs 1 then .next s
  else
    let out := ([0, 1].filter fun p => s.eth.link.getLsbD (8 * p)).map fun p => (p, 1)
    .next { s with eth := { s.eth with hellos := s.eth.hellos + 1, helloAt := s.clk.wtime, relayOut := s.eth.relayOut ++ out } }
/-- HELLO: a neighbour's SERIAL arrives on a port and is learned (R329): `rsv` is the OR of the fields marked 0. -/
def execHello (port serial rsv : Nat) (s : State) : Out :=
  if port < 2 then
    if !s.eth.relayEn ∨ rsv ≠ 0 ∨ !s.eth.link.getLsbD (8 * port) then .next s
    else .next { s with eth := { s.eth with neigh := tset s.eth.neigh 0 port (serial % 2 ^ 128 + 1) } }
  else .fault .noSuchUnit

end Sys2Proof.Machine
end

