-- ==== Sys2Proof/Machine/Images.lean ====
section
/-!
DEFINITION. Image, bit-stream and firmware transfers (R191, R192, R259, R323, R328, R329, R445, R478) and the list of
stored objects (R338).
-/
namespace Sys2Proof.Machine

/-! ### Transfers -/

/-- Transfer by identifier. -/
def State.xfer (s : State) (id : Nat) : Option Xfer := s.xfers.find? fun x => decide (x.id = id)
/-- Store a transfer. -/
def State.setXfer (s : State) (x : Xfer) : State := { s with xfers := s.xfers.map fun y => if y.id = x.id then x else y }
/-- All bytes below n are there. -/
def Xfer.have_ (x : Xfer) (o n : Nat) : Bool := (List.range n).all fun i => (tget x.data none (o + i)).isSome
/-- Store a block. -/
def Xfer.put (x : Xfer) (off : Nat) : List Byte → Xfer
  | [] => x
  | b :: bs => { x with data := tset x.data none off (some b) }.put (off + 1) bs
/-- A block repeats stored bytes with different content (R191). -/
def Xfer.conflicts (x : Xfer) (off : Nat) (bs : List Byte) : Bool :=
  bs.zipIdx.any fun (b, i) => match tget x.data none (off + i) with
    | some c => decide (c ≠ b)
    | none => false
/-- Unverified transfers (R328). -/
def State.openXfers (s : State) : Nat := (s.xfers.filter fun x => !x.verified).length
/-- A transfer begins. -/
def State.startXfer (s : State) (ses kind target part slot hops total : Nat) : State × Nat :=
  let id := s.nextXfer
  ({ s with nextXfer := id + 1, xfers := s.xfers ++ [{
      id := id, ses := ses, kind := kind, target := target, part := part, slot := slot, hops := hops, total := total
      data := [], headOk := false, verified := false, holds := false, last := s.clk.wtime }] }, id)

/-- IMG_START: KIND, TARGET, SLOT, HOPS and TOTAL_LEN (R323, R328). -/
def execImgStart (m : Msg) (kind target slot hops total : Nat) (s : State) : Out :=
  let ok := decide (kind ≤ 4) && decide (target ≤ 2) && decide (hops ≤ 15) && (decide (kind = 2) == decide (target = 2))
    && (decide (target ≠ 0) || decide (m.part ≤ 15)) && (decide (kind = 3 ∧ target = 0) || decide (slot = 0xFFFF))
  s.onMsg m 2 1 16 ok false fun _ s =>
    if target = 0 ∧ s.doldrums then (s, some (stDoldrums, []))
    else if s.openXfers ≥ 32 then (s, some (stNoRoom, []))
    else if kind = 3 ∧ target = 0 ∧ slot ≥ (s.part m.part).adaptSlots then (s, some (stIncompat, []))
    else if kind = 3 ∧ target = 0 ∧ (tget (s.part m.part).adapt ⟨0, 0⟩ slot).state ≠ 0 then (s, some (stBusy, []))
    else
      let (s, id) := s.startXfer m.ses kind target m.part slot hops total
      (s, some (stOk, beBytes 4 id ++ beBytes 4 0))

/-! ### Relay (R329) -/

/-- Ports a relayed image leaves by: away from the one it came by (0 A, 1 B, 2 the management port), where a neighbour
is learned and hops remain. -/
def State.relayPorts (s : State) (x : Xfer) : List Nat :=
  match s.eth.relays.find? fun r => decide (r.xfer = x.id) with
  | none => []
  | some r => if !s.eth.relayEn ∨ r.hops = 0 then []
    else [0, 1].filter fun q => decide (q ≠ r.from_) && decide (tget s.eth.neigh 0 q ≠ 0)
/-- Send an RLY message of a TYPE on. -/
def State.relayOn (s : State) (x : Xfer) (typ : Nat) : State :=
  { s with eth := { s.eth with relayOut := s.eth.relayOut ++ (s.relayPorts x).map fun q => (q, typ) } }

/-! ### Checks as blocks arrive -/

/-- A transfer fails: class 0x38 for a refused signature (R458), then the end of the transfer. -/
def State.blockFails (s : State) (x : Xfer) (f : Fail) (key : Nat) : State × Nat :=
  let s := if f.2.2 = stBadSig then s.sigEv (if x.kind = 0 then 0 else if x.kind = 2 then 2 else 1) key else s
  (s.xferFails x f.1 f.2.1 f.2.2, f.2.2)
/-- A transfer of the kinds that end at PHASE 1 is done. -/
def State.stored (s : State) (x : Xfer) (digest : Nat) : State := (s.imgDone x 0 1 stOk digest).dropXfer x.id
/-- Kind of spool object of a transfer. -/
def xferObj (kind : Nat) : ObjKind := if kind = 0 then .bitstream else if kind = 1 then .model else if kind = 3 then .adapter else .doff
/-- Store a verified object on the spool: mirrored where both cards take it, NO_ROOM where none does (R337, R478). An
object that is there already stays. -/
def State.storeObj (s : State) (x : Xfer) (digest : Nat) (bs : List Byte) : State × Nat :=
  if (s.findObj (fun k => decide (k = xferObj x.kind)) digest).isSome then (s.stored x digest, stOk)
  else
    let (s, ok) := s.spoolPut (newObj (xferObj x.kind) digest bs.length bs 0 0)
    if ok then ((s.sourced digest).stored x digest, stOk) else (s.xferFails x 0 0xFFFF stNoRoom, stNoRoom)

/-- The head of a container is there: steps 1 to 6, then the reservation (R192, R478). -/
def State.confHead (s : State) (x : Xfer) : State × Nat :=
  let bs := x.bytes 0x4000
  let stored := decide (x.target ≠ 0)
  let f := (failIf (!headOk bs x.total) (1, 0xFFFF, stBadImage)).or
    ((failIf (!s.signOk bs 0x1000 0x1000 (headFlag bs 2)) (2, 0xFFFF, stBadSig)).or (s.headFault x.part bs stored x.holds))
  match f with
  | some e => s.blockFails x e (signerOf bs 0x1000 (headFlag bs 2))
  | none =>
    let full := !stored && !headFlag bs 1
    let s := s.setXfer { x with headOk := true, holds := full }
    if full then
      let q := headRect bs
      (s.updPart x.part fun y => { y with state := .receiving, row0 := q.1, col0 := q.2.1, rows := q.2.2.1, cols := q.2.2.2 }, stOk)
    else (s, stOk)
/-- A body block of a container: step 7 on complete sections, and with the whole body steps 8 to 11 and the commit. -/
def State.confBody (s : State) (x : Xfer) : State × Nat :=
  let bs := x.bytes x.total
  let stored := decide (x.target ≠ 0)
  match sectFault bs fun e => x.have_ e.off e.len with
  | some e => s.blockFails x e 0
  | none =>
    if !x.have_ 0 x.total then (s, stOk)
    else
      let struct_ := if stored && headFlag bs 1 then none else (s.part x.part).bodyStruct bs
      match (bodyFault bs).or (struct_.or (if stored then none else s.commitFault x.part bs x.holds)) with
      | some e => s.blockFails x e 0
      | none =>
        if stored then s.storeObj x (confDigest bs) bs
        else
          let s := s.imgDone x 0 1 stOk (confDigest bs)
          if headFlag bs 1 then ((s.dropXfer x.id).commitContainer x.part bs, stOk)
          else ((s.setXfer { x with verified := true }).commitContainer x.part bs, stOk)

/-- The head of an image is there: steps 1, 2, 3 and 5 (R259); step 3 only where it is addressed to a partition. -/
def State.imgHead (s : State) (x : Xfer) : State × Nat :=
  let bs := x.bytes 0x10000
  let f := (failIf (!imgHeadOk bs x.kind x.total) (1, 0xFFFF, stBadImage)).or
    ((failIf (!s.signOk bs 0xC400 0xC400 (imgFlag bs 0)) (2, 0xFFFF, stBadSig)).or
      ((failIf (decide (x.target = 0) && !(s.part x.part).imageFits bs x.kind) (3, 0xFFFF, stIncompat)).or
        (failIf (!unitsOk bs) (5, 0xFFFF, stBadImage))))
  match f with
  | some e => s.blockFails x e (signerOf bs 0xC400 (imgFlag bs 0))
  | none =>
    let s := s.setXfer { x with headOk := true, holds := decide (x.kind = 3 ∧ x.target = 0) }
    if x.kind = 3 ∧ x.target = 0 then
      (s.updPart x.part fun y => { y with adapt := tset y.adapt ⟨0, 0⟩ x.slot ⟨1, imgMeasure bs⟩ }, stOk)
    else (s, stOk)
/-- A body block of an image: step 7 on complete segments, then step 8 and what the image is for (R259, R262). -/
def State.imgBody (s : State) (x : Xfer) : State × Nat :=
  let bs := x.bytes x.total
  let bad := (imgUnits bs).any fun u => x.have_ u.off u.size && !segOk bs u
  if bad then s.blockFails x (7, 0xFFFF, stBadImage) 0
  else if !x.have_ 0 x.total then (s, stOk)
  else if !imgBodyOk bs then s.blockFails x (8, 0xFFFF, stBadImage) 0
  else if x.target ≠ 0 then s.storeObj x (imgMeasure bs) bs
  else if !s.vacantOk x.part bs then s.blockFails x (7, 0xFFFF, stBadImage) 0
  else if x.kind = 3 then
    let y := s.part x.part
    if !Config.adapterScales (imgMeasure bs) y.model then s.blockFails x (3, 0xFFFF, stIncompat) 0
    else
      ((((imgUnits bs).foldl (fun s u => s.writeAdapter x.part bs u x.slot (List.range y.coreCount)) s)).stored x (imgMeasure bs), stOk)
  else ((s.imgDone x 0 1 stOk (imgMeasure bs)).setXfer { x with verified := true }, stOk)

/-- The header of a firmware image is there: steps 1 to 5 of R445; the body then goes to the alternate slot. -/
def State.fwHead (s : State) (x : Xfer) (sig : Bool) : State × Nat :=
  let bs := x.bytes 0x1000
  let k := leAt bs 6 1
  let other := s.xfers.any fun y => decide (y.kind = 2) && y.holds && decide (y.id ≠ x.id)
  let activating := compNums.any fun c => decide ((s.comp c).state = 3)
  match s.fwHeader bs sig with
  | some (c, st) => s.blockFails { x with slot := k } (c, 0xFFFF, st) 0
  | none =>
    if leAt bs 0xC 4 + 4096 ≠ x.total then s.blockFails { x with slot := k } (1, 0xFFFF, stBadImage) 0
    else if other ∨ activating then s.blockFails { x with slot := k } (5, 0xFFFF, stBusy) 0
    else
      let s := s.setXfer { x with headOk := true, holds := true, slot := k }
      let s := s.updComp k fun c =>
        { c with state := 1, stage := c.state, same := false, other := { Image.reset with valid := false } }
      ((s.relayOn x 2).relayOn x 3, stOk)
/-- A body block of a firmware image: step 6, then the staged image activates as R447 says. -/
def State.fwBody (s : State) (x : Xfer) : State × Nat :=
  let bs := x.bytes x.total
  let s := s.relayOn x 3
  if !x.have_ 0 x.total then (s, stOk)
  else if dig (bs.drop 0x1000) ≠ leAt bs 0x30 64 then s.blockFails x (6, 0xFFFF, stBadImage) 0
  else
    let img := fwImage bs
    let s := s.updComp x.slot fun c =>
      { c with other := img, same := decide (c.active = img), state := 2, stage := 0, relayed := decide (x.ses = 0) }
    let s := s.imgDone x 0 1 stOk img.measure
    if x.ses = 0 then (s.setXfer { x with verified := true, data := [] }, stOk)
    else
      let s := s.relayOn x 4
      let s := { s with eth := { s.eth with relays := s.eth.relays.filter fun r => decide (r.xfer ≠ x.id) } }
      ((s.dropXfer x.id).fwStart x.slot false, stOk)

/-- A block of a transfer (R191): stored, then the checks that become due. -/
def State.block (s : State) (x : Xfer) (off : Nat) (data : List Byte) (sig : Bool) : State × Nat :=
  let head := headBytes x.kind
  if off + data.length > x.total then (s, stIncompat)
  else if !x.headOk ∧ off + data.length > head then (s, stNotYet)
  else if x.conflicts off data then s.blockFails x (0, 0xFFFF, stBadImage) 0
  else if x.verified then (s, stOk)
  else
    let x := { x.put off data with last := s.clk.wtime }
    let s := s.setXfer x
    if !x.headOk then
      if !x.have_ 0 (min head x.total) then (s, stOk)
      else if x.kind = 0 then s.confHead x
      else if x.kind = 2 then s.fwHead x sig
      else s.imgHead x
    else if x.kind = 0 then s.confBody x
    else if x.kind = 2 then s.fwBody x
    else s.imgBody x

/-- IMG_BLOCK: XFER, OFFSET and DATA; `sig` is whether a firmware header this block completes carries a signature that
verifies under the vendor key (R191, R323, R445). -/
def execImgBlock (m : Msg) (xfer off : Nat) (data : List Byte) (sig : Bool) (s : State) : Out :=
  s.onMsg m 2 2 (16 + data.length) (decide (data.length ≤ 8192) && decide (off % 64 = 0)) false fun _ s =>
    match s.xfer xfer with
    | none => (s, some (stGone, []))
    | some x =>
      if x.ses ≠ m.ses then (s, some (stGone, []))
      else
        let s := if x.kind = 2 ∧ x.hops > 0 ∧ !(s.eth.relays.any fun r => decide (r.xfer = x.id)) then
            { s with eth := { s.eth with relays := s.eth.relays ++ [{ from_ := min 2 (m.iface / 8), hops := x.hops, xfer := x.id, sent := 0 }] } }
          else s
        let (s, st) := s.block x off data sig
        (s.setSeams, some (st, beBytes 4 xfer ++ beBytes 4 0 ++ beBytes 8 off))
/-- IMG_CANCEL: the transfer ends as R193 says; the spec gives the status it leaves no value. -/
def execImgCancel (m : Msg) (xfer : Nat) (s : State) : Out :=
  s.onMsg m 2 3 8 true false fun _ s =>
    match s.xfer xfer with
    | none => (s, some (stGone, []))
    | some x =>
      if x.ses ≠ m.ses ∨ x.verified then (s, some (stGone, []))
      else
        let (s, st) := s.draw
        ((s.xferFails x 0 0 (freeStatus st)).setSeams, some (stOk, []))
/-- TRANSFER_TIMEOUT: no block for 60 s, and the transfer is abandoned (R191). -/
def execTransferTimeout (xfer : Nat) (s : State) : Out :=
  match s.xfer xfer with
  | none => .next s
  | some x =>
    if x.verified ∨ s.clk.wtime < x.last + secs 60 then .next s
    else
      let (s, st) := s.draw
      .next (s.xferFails x 0 0 (freeStatus st)).setSeams

/-! ### Relayed firmware (R329) -/

/-- RLY_START on port 0 A or 1 B from a device of a serial: accepted from the learned neighbour alone (held plus 1), and only
for KIND 2, with relay enabled. -/
def execRlyStart (port serial kind hops total : Nat) (s : State) : Out :=
  if port > 1 then .fault .noSuchUnit
  else if !s.eth.relayEn ∨ tget s.eth.neigh 0 port ≠ serial % 2 ^ 128 + 1 ∨ kind ≠ 2 ∨ hops > 15 ∨ s.openXfers ≥ 32 then .next s
  else
    let (s, id) := s.startXfer 0 2 2 0xFF 0xFFFF hops total
    .next { s with eth := { s.eth with relays := s.eth.relays ++ [{ from_ := port, hops := hops, xfer := id, sent := 0 }] } }
/-- RLY_BLOCK: stored and checked as a firmware block; the signed header comes first. -/
def execRlyBlock (xfer off : Nat) (data : List Byte) (sig : Bool) (s : State) : Out :=
  match s.xfer xfer with
  | none => .next s
  | some x =>
    if x.ses ≠ 0 ∨ data.length > 8192 ∨ off % 64 ≠ 0 then .next s else .next (s.block x off data sig).1
/-- RLY_DONE: the image is complete; it goes on to the next neighbour, and activates here where RELAY_ACT is 1 (R447). -/
def execRlyDone (xfer : Nat) (s : State) : Out :=
  match s.xfer xfer with
  | none => .next s
  | some x =>
    if x.ses ≠ 0 ∨ !x.verified then .next s
    else
      let s := s.relayOn x 4
      let s := { s with eth := { s.eth with relays := s.eth.relays.filter fun r => decide (r.xfer ≠ x.id) } }
      let s := s.dropXfer x.id
      .next (if s.boot.relayAct ∧ (s.comp x.slot).state = 2 then s.fwStart x.slot false else s)

/-! ### Stored objects (R338) -/

/-- KIND of an object in a list: 0 bit-stream, 1 model, 2 DOFF, 3 adapter image. -/
def ObjKind.listKind : ObjKind → Option Nat
  | .bitstream => some 0
  | .model => some 1
  | .doff => some 2
  | .adapter => some 3
  | _ => none
/-- FLAGS: named by a loaded partition, by a pending doff or adapter load, restore source. -/
def State.objFlags (s : State) (o : SpoolObj) : Nat :=
  let ps := partNums.map s.part
  let d := o.digest
  (ps.any fun x => x.loaded && (if o.kind = .bitstream then decide (x.digest = d) else decide (x.model = d))).toNat
  + 2 * (o.kind.image && ps.any fun x => (decide (x.doff.state ≠ 0) && decide (x.doff.image = d)) || (x.doffWait.any fun y => decide (y.1 = d))
      || x.adapt.any fun a => decide (a.2.state = 1) && decide (a.2.image = d)).toNat
  + 4 * (o.kind.image && ps.any fun x => x.policy 1 && x.restore && x.ptrs.any fun e => decide (e.image = d)).toNat
/-- A digest as the number its bytes spell. -/
def digestOrder (d : Nat) : Nat := leNat (leBytes 64 d).reverse
/-- Durable objects of SPL_LIST KIND 0 or 1, by digest. -/
def State.listed (s : State) (kind : Nat) : List SpoolObj :=
  let l := s.spl.objs.filter fun o => decide (o.stored ≠ 0) && decide (o.cards ≠ 0) && match o.kind.listKind with
    | none => false
    | some k => decide (k = 0) == decide (kind = 0)
  l.foldl (fun (a : List SpoolObj) o =>
    (a.takeWhile fun b => decide (digestOrder b.digest ≤ digestOrder o.digest)) ++ o :: a.dropWhile fun b => decide (digestOrder b.digest ≤ digestOrder o.digest)) []
/-- An entry of 96 B. -/
def State.objEntry (s : State) (o : SpoolObj) : List Byte :=
  leBytes 64 o.digest ++ beBytes 1 (o.kind.listKind.getD 0) ++ beBytes 1 (o.cards % 2 + o.cards / 2 % 2) ++ beBytes 1 (s.objFlags o)
    ++ beBytes 5 0 ++ beBytes 8 o.size ++ beBytes 8 o.stored ++ beBytes 8 0
/-- SPL_LIST: KIND, COUNT and FIRST (R323, R338). -/
def execSplList (m : Msg) (kind count first : Nat) (s : State) : Out :=
  s.onMsg m 2 5 8 (decide (kind ≤ 1) && decide (1 ≤ count) && decide (count ≤ 64)) false fun _ s =>
    let l := s.listed kind
    let es := (l.drop first).take count
    (s, some (stOk, beBytes 4 l.length ++ beBytes 2 es.length ++ beBytes 2 0 ++ es.flatMap s.objEntry))
/-- SPL_DELETE: KIND and DIGEST; both copies are discarded unless the object is in use (R338). -/
def execSplDelete (m : Msg) (kind digest : Nat) (s : State) : Out :=
  s.onMsg m 2 6 72 (decide (kind ≤ 1)) false fun _ s =>
    match (s.listed kind).find? fun o => decide (o.digest = digest) with
    | none => (s, some (stGone, []))
    | some o =>
      if s.objFlags o ≠ 0 then (s, some (stBusy, []))
      else
        let s := [0, 1].foldl (fun s c => if o.cards.testBit c then s.capacityEv c 2 o else s) s
        (s.dropObj fun x => decide (x.id = o.id), some (stOk, []))

end Sys2Proof.Machine
end

