-- ==== Sys2Proof/Machine/Doffing.lean ====
section
/-!
DEFINITION. Doffs, adapter slots and tuning requests (R264, R266 to R272, R323).
-/
namespace Sys2Proof.Machine

/-- Order a doff (R269, R270, R272): the digest names a verified DOFF image that fits; one ordered during another waits. -/
def State.orderDoff (s : State) (p digest : Nat) (inPlace : Bool) : State × Reply :=
  let x := s.part p
  if x.state = .down then (s, (stDown, []))
  else if x.state ≠ .ready ∧ x.state ≠ .applying then (s, (stBusy, []))
  else match s.imageSource digest with
    | none => (s, (stGone, []))
    | some bs =>
      if !imgFlag bs 1 ∨ !x.imageFits bs 4 then (s, (stIncompat, []))
      else if !s.vacantOk p bs then (s, (stBadImage, []))
      else if x.doff.state ≠ 0 ∨ x.oldLive then
        (s.updPart p fun x => { x with doffWait := x.doffWait ++ [(digest, inPlace)] }, (stOk, []))
      else (s.beginDoff p digest inPlace, (stOk, []))
/-- DOFF with MODE 0: staged where every unit has a slot, else in place (R269). -/
def execDoffStaged (m : Msg) (digest : Nat) (s : State) : Out := s.onPart m 3 72 true fun _ s => s.orderDoff m.part digest false
/-- DOFF with MODE 1: in place (R270). -/
def execDoffInPlace (m : Msg) (digest : Nat) (s : State) : Out := s.onPart m 3 72 true fun _ s => s.orderDoff m.part digest true
/-- DOFF_SWITCH: between launches, once the units are written and the old epoch's slots are free (R268, R269). -/
def execDoffSwitch (p : Nat) (s : State) : Out :=
  if p > 15 then .fault .noSuchUnit
  else
    let x := s.part p
    if x.state ≠ .ready ∨ x.doff.state ≠ 2 ∨ x.oldLive ∨ x.held ≠ 0 ∨ x.repair.isSome then .next s
    else .next (s.switchDoff p)
/-- IN_PLACE_UNIT_HOLD: with no step in flight the requests are held at the barrier of the next unit (R270 step 1, R300), and with the
next one the unit is copied, its exponents replaced, the epoch raised and the hold over (R270 steps 2 to 4). Rows without a spare vault
take their slices from the image source, and the hold lasts until it is there; slices that a repair has taken are staged again from it
before the next hold (R271). -/
def execInPlaceUnitHold (p : Nat) (s : State) : Out :=
  if p > 15 then .fault .noSuchUnit
  else
    let x := s.part p
    let source := (s.imageSource x.doff.image).isSome
    if x.state ≠ .ready ∨ !x.doff.inPlace ∨ x.phase ≠ .none ∨ x.repair.isSome then .next s
    else if x.doff.state = 4 then
      .next (if source then (s.imageRead x.doff.image).updPart p fun x => { x with doff := { x.doff with state := 1, again := [] } } else s)
    else if x.doff.state = 1 ∧ x.held = 0 ∧ x.applying = 0 then
      .next ((s.updPart p fun x => { x with doff := { x.doff with state := 3 } }).holdPart p 4)
    else if x.doff.state = 3 ∧ (source ∨ !s.spareless p) then .next (s.inPlaceUnit p)
    else .next s
/-- DOFF_CANCEL: a staged doff before its switch is given up and its slots are free (R269). -/
def execDoffCancel (m : Msg) (s : State) : Out :=
  s.onPart m 4 0 true fun _ s =>
    let d := (s.part m.part).doff
    if d.state = 0 then (s, (stGone, []))
    else if d.inPlace then (s, (stBusy, []))
    else ((((s.updPart m.part fun x => { x with doff := .idle }).imageDone d.image).nextDoff m.part), (stOk, []))

/-! ### Adapter slots (R264) -/

/-- An ADAPTER message on a slot: `f` gives the state after it, or none where the slot's state forbids it. -/
def State.onSlot (s : State) (m : Msg) (slot : Nat) (f : AdaptSlot → State → Option State) : Out :=
  s.onPart m 5 8 true fun _ s =>
    let x := s.part m.part
    let busy := s.xfers.any fun y => decide (y.kind = 3) && decide (y.target = 0) && decide (y.part = m.part) && decide (y.slot = slot) && y.holds
    if !x.loaded ∨ slot ≥ x.adaptSlots then (s, (stIncompat, []))
    else if busy then (s, (stBusy, []))
    else match f (tget x.adapt ⟨0, 0⟩ slot) s with
      | none => (s, (stIncompat, []))
      | some s =>
        let s := s.adaptSettle m.part
        (s, (stOk, beBytes 1 (tget (s.part m.part).adapt ⟨0, 0⟩ slot).state ++ beBytes 7 0))
/-- A slot takes a state; it is no tuning slot any more. -/
def Part.setSlot (x : Part) (slot : Nat) (a : AdaptSlot) : Part :=
  { x with adapt := tset x.adapt ⟨0, 0⟩ slot a, tuneSlot := if x.tuneSlot = some slot then none else x.tuneSlot
           tunes := x.tunes.filter fun t => decide (t.slot ≠ slot) }
/-- ADAPTER with OP 0: a LOADING slot becomes READY. -/
def execAdapterSetReady (m : Msg) (slot : Nat) (s : State) : Out :=
  s.onSlot m slot fun a s =>
    if a.state = 1 then some (s.updPart m.part fun x => x.setSlot slot { a with state := 2 }) else none
/-- ADAPTER with OP 1: a READY slot becomes RETIRING, and FREE once no bound request is left; a LOADING one is FREE. -/
def execAdapterRetire (m : Msg) (slot : Nat) (s : State) : Out :=
  s.onSlot m slot fun a s =>
    if a.state = 2 then
      let bound := s.partReqs m.part fun r => r.live && decide (r.par.adapter = slot)
      let s := bound.foldl (fun s i => s.updReq i fun r => { r with boundSlot := true }) s
      some (s.updPart m.part fun x => x.setSlot slot { a with state := 3 })
    else if a.state = 3 then some s
    else if a.state = 1 then some (s.updPart m.part fun x => x.setSlot slot ⟨0, 0⟩)
    else none
/-- ADAPTER with OP 2: a LOADING slot becomes the tuning slot (R266). -/
def execAdapterNameTuning (m : Msg) (slot : Nat) (s : State) : Out :=
  s.onSlot m slot fun a s => if a.state = 1 then some (s.updPart m.part fun x => { x with tuneSlot := some slot }) else none

/-- TUNE: SLOT, STEPS and the requests whose histories are the examples: paused requests of the partition (R266, R323). -/
def execTune (m : Msg) (slot steps : Nat) (ids : List Nat) (s : State) : Out :=
  s.onPart m 6 (8 + 4 * ids.length) true fun h s =>
    let x := s.part m.part
    let idx := ids.map s.findReq
    let ok := fun i => (s.req i).par.part = m.part ∧ (s.req i).state = .paused ∧ (h.role ≠ 0 ∨ (s.req i).par.tenant = h.tenant)
    if idx.any Option.isNone then (s, (stGone, []))
    else if x.tuneSlot ≠ some slot ∨ x.tune = [] ∨ steps = 0 ∨ ids = [] ∨ !((idx.filterMap id).all fun i => decide (ok i)) then
      (s, (stIncompat, []))
    else (s.updPart m.part fun x => { x with tunes := x.tunes ++ [{ slot := slot, steps := steps, reqs := idx.filterMap id }] }, (stOk, []))

end Sys2Proof.Machine
end

