-- ==== Sys2Proof/Machine/Requests.lean ====
section
/-!
DEFINITION. Requests as the host handles them (R275 to R281, R289 to R301, R324 to R326, R476, R477) and their lifetimes.
-/
namespace Sys2Proof.Machine

/-! ### Admission (R276 to R278) -/

/-- TEMP: ±0 or a positive finite BF16. -/
def tempOk (x : Nat) : Bool := decide (x = 0x8000) || decide (x < 0x7F80)
/-- TOP_P: a finite BF16 above 0 and at most 1. -/
def topPOk (x : Nat) : Bool := decide (0 < x) && decide (x ≤ 0x3F80)
/-- Check 6: the parameters within R276, `n` tokens with the message. -/
def Part.paramsOk (x : Part) (q : ReqParam) (n : Nat) : Bool :=
  decide (q.tenant < 4096) && decide (1 ≤ q.promptLen) && decide (q.promptLen ≤ x.maxContext - 1) && decide (1 ≤ q.maxNew) && decide (q.maxNew ≤ x.maxNew)
    && (decide (q.adapter = 0xFFFF) || decide (q.adapter < x.adaptSlots)) && decide (q.prio ≤ 2) && decide (1 ≤ q.width) && decide (q.width ≤ x.specWidth)
    && tempOk q.temp && decide (q.topK ≤ 1024) && topPOk q.topP && decide (q.pin ≤ x.maxContext) && decide (q.kvTtl ≤ 86400) && decide (n ≤ q.promptLen)
/-- Check 7: positions within MAX_CONTEXT, and pages of any one group within PAGES (R278). -/
def State.fits (s : State) (p positions : Nat) : Bool :=
  let pages := (positions + 63) / 64
  decide (positions ≤ (s.part p).maxContext) &&
    (List.range (s.groups p).length).all fun g =>
      decide (((List.range pages).filter fun i => decide (s.pageGroup p i = g)).length ≤ (s.part p).pages)
/-- Checks 2 and 3: the partition serves. -/
def Part.admits (x : Part) : Option Nat :=
  match x.state with
  | .empty => some stDown
  | .down => some stDown
  | .ready => none
  | .applying => none
  | _ => some stBusy
/-- Checks 2 to 9 of R277. -/
def State.admission (s : State) (p : Nat) (q : ReqParam) (n : Nat) : Nat :=
  let x := s.part p
  let t := s.tenant q.tenant
  let mine := (s.srv.reqs.filter fun r => r.2.used && decide (r.2.par.tenant = q.tenant)).length
  let slot := (tget x.adapt ⟨0, 0⟩ q.adapter).state
  match x.admits with
  | some st => st
  | none =>
    if !t.admitOk ∨ (t.maxReq ≠ 0 ∧ mine ≥ t.maxReq) then stBudget
    else if t.limit ∧ t.reject ∧ t.level ≤ 0 then stBudget
    else if !x.paramsOk q n then stNoRoom
    else if !s.fits p (q.promptLen + q.maxNew) then stNoRoom
    else if q.adapter ≠ 0xFFFF ∧ (slot = 0 ∨ slot = 3) then stIncompat
    else if s.reqIdxs.length ≥ 131072 then stNoRoom
    else stOk
/-- The entry a submission takes: the next free one from a place the spec does not name. -/
def State.freeIndex (s : State) (start : Nat) : Nat :=
  let try_ := fun n => (start + n) % 131072
  (((List.range 131072).find? fun n => !(s.req (try_ n)).used).map try_).getD 0

/-- SUBMIT: the parameters and the prompt tokens it carries (R276, R277, R323, R324). -/
def execSubmit (m : Msg) (q : ReqParam) (toks : List Nat) (s : State) : Out :=
  let n := toks.length
  s.onMsg m 4 1 (64 + 4 * n) (decide (1 ≤ n) && decide (n ≤ 2160) && decide (q.flags < 32)) true fun h s =>
    if h.role = 0 ∧ q.tenant ≠ h.tenant ∨ !s.mayUse h m.part then (s, some (stIncompat, []))
    else if s.doldrums then (s, some (stDoldrums, []))
    else
      let st := s.admission m.part q n
      if st ≠ stOk then (s, some (st, []))
      else
        let (s, d) := s.draw
        let i := s.freeIndex (d % 131072)
        let ord := s.srv.order + 1
        let s := { s with srv := { s.srv with order := ord } }
        let s := s.updReq i fun r =>
          { Request.reset with gen := r.gen, used := true, par := { q with part := m.part }, hist := toks, turnLen := q.promptLen
                               turnGot := n, lastBlock := s.clk.wtime, owner := m.ses, order := ord }
        (s, some (stOk, beBytes 4 (s.reqId i) ++ beBytes 4 0 ++ beBytes 8 q.tag))

/-- PROMPT: the tokens from OFFSET on of a prompt or an append (R276, R326). -/
def execPrompt (m : Msg) (id off : Nat) (toks : List Nat) (s : State) : Out :=
  s.onReq m 2 (16 + 4 * toks.length) true id fun _ i s =>
    let r := s.req i
    let held := fun (n : Nat) => beBytes 4 id ++ beBytes 4 n
    if r.state.isOver then (s, (stGone, []))
    else if off ≠ r.turnGot then (s, (stNotYet, held r.turnGot))
    else if off + toks.length > r.turnLen then (s, (stNoRoom, held r.turnGot))
    else
      let s := s.updReq i fun r =>
        { r with hist := r.hist ++ toks, turnGot := r.turnGot + toks.length, lastBlock := s.clk.wtime }
      let s := if r.nextSeq ≠ 0 then s.histWrite i else s
      (s, (stOk, held (r.turnGot + toks.length)))
/-- PROMPT_TIMEOUT: a prompt still incomplete 60 s after its last block ends its request (R276). -/
def execPromptTimeout (i : Nat) (s : State) : Out :=
  if i ≥ 131072 then .fault .noSuchUnit
  else
    let r := s.req i
    if !r.live ∨ r.hist.length ≥ r.par.promptLen ∨ s.clk.wtime < r.lastBlock + secs 60 then .next s
    else .next (s.endReq i .failed stExpired)

/-! ### Reading (R291, R293, R477) -/

/-- Reply to a READ of chunk n (R293): status, EXPECT and the chunk's bytes. -/
def State.readChunk (s : State) (i n : Nat) : Nat × Nat × List Byte :=
  let r := s.req i
  let zero := List.replicate 64 (0 : Byte)
  let x := s.part r.par.part
  let expect := if s.inStep i then x.step else (x.step + 1) % 2 ^ 32
  if n < r.nextSeq then
    match r.chunks.find? fun c => decide (c.seq = n) with
    | some c => (stOk, 0, c.bytes)
    | none => (stGone, 0, zero)
  else if r.state.isOver then (stGone, 0, zero)
  else if r.state = .held then (stHeld, expect, zero)
  else if r.state = .paused ∨ r.state = .spooled then (stNotYet, 0xFFFFFFFF, zero)
  else (stNotYet, expect, zero)
/-- READ (R293, R323, R325). -/
def execRead (m : Msg) (id n : Nat) (s : State) : Out :=
  s.onReq m 3 8 true id fun _ i s =>
    let (st, expect, c) := s.readChunk i n
    (s, (st, entryBytes id expect (s.req i).par.tag c))
/-- STATUS (R477). -/
def execStatus (m : Msg) (id : Nat) (s : State) : Out :=
  s.onReq m 5 8 true id fun _ i s =>
    let r := s.req i
    let away := decide (r.state = .queued) || decide (r.state = .spooled) || r.state.isOver
    (s, (stOk, beBytes 4 id ++ beBytes 1 r.state.code ++ beBytes 1 r.state.isOver.toNat
      ++ beBytes 2 (r.kvExpired.toNat + 2 * r.histLost.toNat) ++ beBytes 4 (if r.nextSeq = 0 then 0xFFFFFFFF else r.nextSeq - 1)
      ++ beBytes 4 r.positions ++ beBytes 8 r.par.tag ++ beBytes 4 (if away then 0 else r.frames.length) ++ beBytes 4 0))

/-! ### Cancel, pause, release, claim (R281, R292, R295, R476) -/

/-- REQID and STATE of a reply. -/
def State.stateBody (s : State) (id i : Nat) : List Byte := beBytes 4 id ++ beBytes 1 (s.req i).state.code ++ beBytes 3 0
/-- CANCEL: the request ends CANCELLED, after the commit of a step that holds it (R301). -/
def execCancel (m : Msg) (id : Nat) (s : State) : Out :=
  s.onReq m 6 8 true id fun _ i s =>
    let s := if (s.req i).state.isOver then s else s.cancelReq i
    (s, (stOk, s.stateBody id i))
/-- PAUSE: of a request in INGEST, SPIN or HELD, at its next step boundary (R295). -/
def execPause (m : Msg) (id : Nat) (s : State) : Out :=
  s.onReq m 7 8 true id fun _ i s =>
    let r := s.req i
    if r.state.isOver then (s, (stGone, []))
    else if r.state = .ingest ∨ r.state = .spin ∨ r.state = .held then
      let s := s.updReq i fun r => { r with pausePend := true }
      let s := if s.inStep i then s else s.updReq i fun r => r.pauseDue s.clk.wtime
      (s, (stOk, s.stateBody id i))
    else (s, (stIncompat, []))
/-- RELEASE: a request in PAUSED or SPOOLED ends DONE; an ended one's entry is freed. -/
def execRelease (m : Msg) (id : Nat) (s : State) : Out :=
  s.onReq m 8 8 true id fun _ i s =>
    let r := s.req i
    if r.state.isOver then
      let b := s.stateBody id i
      (s.freeEntry i, (stOk, b))
    else if r.state = .paused ∨ r.state = .spooled then
      let s := s.endReq i .done stOk
      (s, (stOk, s.stateBody id i))
    else (s, (stIncompat, []))
/-- CLAIM: the session becomes the owner (R292). -/
def execClaim (m : Msg) (id : Nat) (s : State) : Out :=
  s.onReq m 9 8 true id fun _ i s =>
    let s := s.updReq i fun r => { r with owner := m.ses }
    (s, (stOk, s.stateBody id i))

/-! ### Resume (R296 to R299) -/

/-- A request whose KV is resident goes on: into SPIN, or into INGEST from the start of its last sequence block. -/
def Request.goOn (r : Request) (held : Bool) : Request :=
  let to_ : ReqState := if r.turnLen = 0 then .spin else .ingest
  let r := { r with state := if held then .held else to_, before := to_, kvCard := none, kvExpired := false, spoolingIn := false, retryAt := 0 }
  if r.turnLen = 0 then r
  else { r with committed := r.committed / 128 * 128, pages := r.pages.take (2 * (r.committed / 128)) }
/-- Frames for the spin pages of a record, in their own groups, in page order (R298). -/
def State.spoolFrames (s : State) (p : Nat) : List Page → List (Nat × Nat) → Option (List (Nat × Nat))
  | [], got => some got
  | g :: gs, got =>
    if g.state ≠ 4 then s.spoolFrames p gs got
    else (s.pickFrame p g.g got).bind fun f => s.spoolFrames p gs (got ++ [(f, g.g)])
/-- The record of a SPOOLED request is there and its tags match the partition (R296, R298). -/
def State.kvUsable (s : State) (i : Nat) : Bool :=
  let r := s.req i
  let x := s.part r.par.part
  !r.kvExpired && r.kvCard.isSome && decide (r.kvModel = x.model) && decide (r.kvPage = dig (x.sect 9))
    && s.spl.objs.any fun o => decide (o.kind = .kv) && decide (o.digest = i) && decide (o.stored ≠ 0)
/-- Re-ingest of the whole history (R298, R299). -/
def State.reIngestAll (s : State) (i : Nat) : State :=
  let r := s.req i
  let p := r.par.part
  if !s.histHeld i then s.endReq i .failed stInternal
  else
    let s := s.kvDrop i
    if s.slotsUsed p < (s.part p).maxBatch ∧ s.activeCount < 32768 then
      let held := decide ((s.part p).held ≠ 0)
      s.updReq i fun r => { (r.reIngest .ingest) with slot := true, state := if held then .held else .ingest, before := .ingest, retryAt := 0 }
    else s.updReq i fun r => { (r.reIngest .queued) with retryAt := 0 }
/-- A resume of a request, past the session layer and check 1 (R277, R289, R298): `append` positions, the tokens with the message,
the parameters `v` that `change` selects. -/
def State.resumeReq (s : State) (id i append change : Nat) (v : ReqParam) (toks : List Nat) : State × Reply :=
  let n := toks.length
  let r := s.req i
  let p := r.par.part
  let x := s.part p
  let q := { r.par with
    maxNew := if change.testBit 0 then v.maxNew else r.par.maxNew
    temp := if change.testBit 1 then v.temp else r.par.temp, topP := if change.testBit 1 then v.topP else r.par.topP
    topK := if change.testBit 1 then v.topK else r.par.topK, seed := if change.testBit 1 then v.seed else r.par.seed
    stop := if change.testBit 2 then v.stop else r.par.stop }
  if r.state.isOver then
    (s, (if r.state = .done ∧ (r.chunks.getLast?.map (·.status)) = some stExpired then stExpired else stGone, []))
  else if r.state ≠ .paused ∧ r.state ≠ .spooled ∨ r.spoolingIn then (s, (stIncompat, []))
  else match x.admits with
    | some st => (s, (st, []))
    | none =>
      let range := decide (1 ≤ q.maxNew) && decide (q.maxNew ≤ x.maxNew) && tempOk q.temp && topPOk q.topP && decide (q.topK ≤ 1024)
      if !(s.tenant q.tenant).admitOk then (s, (stBudget, []))
      else if !range ∨ n > append ∨ !s.fits p (r.positions + append + q.maxNew) then (s, (stNoRoom, []))
      else
        let take := fun (s : State) => (s.updReq i fun r =>
          { r with par := q, hist := r.hist ++ toks, turnLen := append, turnGot := n, newTok := 0, lastBlock := s.clk.wtime }).histWrite i
        let held := decide (x.held ≠ 0)
        if r.state = .paused then
          let s := take s
          let s := if r.spooling.isSome then (s.kvDrop i).updReq i fun r => { r with spooling := none } else s
          let s := s.updReq i fun r => r.goOn held
          (s, (stOk, s.stateBody id i))
        else if s.kvUsable i then
          match s.spoolFrames p r.pages [] with
          | none => (s, (stNoRoom, []))
          | some fs =>
            if s.slotsUsed p ≥ x.maxBatch then (s, (stNoRoom, []))
            else
              let s := (take s).updReq i fun r => { r with target := fs, slot := true, spoolingIn := true }
              let s := s.updPart p fun x => { x with chosen := x.chosen ++ fs }
              (s, (stOk, s.stateBody id i))
        else
          let s := (take s).reIngestAll i
          (s, (if (s.req i).state = .failed then stInternal else stOk, s.stateBody id i))

/-- RESUME of a PAUSED or SPOOLED request: APPEND_LEN, the tokens with the message, and by CHANGE new MAX_NEW_R, sampling
and STOP values (R298, R323). The session layer's refusals come before check 1 (R277). -/
def execResume (m : Msg) (id append change : Nat) (v : ReqParam) (toks : List Nat) (s : State) : Out :=
  s.onMsg m 4 0xA (48 + 4 * toks.length) (decide (change < 8)) true fun h s =>
    let out := match s.findReq id with
      | none => !s.mayUse h m.part
      | some i => (decide (h.role = 0) && decide ((s.req i).par.tenant ≠ h.tenant)) || !s.mayUse h m.part || !s.mayUse h (s.req i).par.part
    if out then (s, some (stIncompat, []))
    else if s.doldrums then (s, some (stDoldrums, []))
    else match s.findReq id with
      | none => (s, some (stGone, []))
      | some i =>
        let (s, a) := s.resumeReq id i append change v toks
        (s, some a)

/-! ### The KV record (R296, R298) -/

/-- Bursts of a page's frame, in the order of the slices: every cluster of the group, slice by slice (R226, R235). -/
def State.frameBursts (s : State) (p f g : Nat) : List (Nat × Nat) :=
  let x := s.part p
  match x.area 3 x.pool with
  | none => []
  | some (first, _) => ((s.groups p).getD g []).flatMap fun u => (List.range 64).flatMap fun j =>
      (List.range x.pageBursts).map fun b => (s.clusterCore u ((j + 2 * f) % 64), first + f * x.pageBursts + b)
/-- A request's KV record: its page table (R237), then the contents of its spin pages, read through the second ports (R121, R129, R296). -/
def State.kvRecord (s : State) (i : Nat) : State × List Byte :=
  let r := s.req i
  ((r.pages.filter fun x => decide (x.state = 1)).flatMap fun x => s.frameBursts r.par.part x.f x.g).foldl
    (fun (a : State × List Byte) (c, b) =>
      let (s, bs, _) := a.1.vaultRead c b 1
      (s, a.2 ++ bs)) (s, r.pages.flatMap fun x => leBytes 4 x.entry)
/-- Write a page's contents into a frame. -/
def State.kvWrite (s : State) (p f g : Nat) (bs : List Byte) : State :=
  (s.frameBursts p f g).zipIdx.foldl (fun s ((c, b), k) => s.setVault c ((s.vault c).write b ((bs.drop (64 * k)).take 64))) s
/-- Bytes of a page in a record. -/
def State.pageSize (s : State) (p g : Nat) : Nat := 64 * (s.frameBursts p 0 g).length

/-- SPOOL_OUT_DURABLE: the card reports the record durable; the frames and the state slot are free and the request is
SPOOLED (R296). -/
def execSpoolOutDurable (i : Nat) (s : State) : Out :=
  if i ≥ 131072 then .fault .noSuchUnit
  else
    let r := s.req i
    match r.spooling with
    | none => .next s
    | some c =>
      if r.state ≠ .paused then .next s
      else
        let x := s.part r.par.part
        let now := max 1 s.clk.wtime
        let ttl := if r.par.kvTtl ≠ 0 then r.par.kvTtl else x.spool.toNat / 2 ^ 15
        let (s, bs) := s.kvRecord i
        let keep := fun (o : SpoolObj) =>
          if o.kind = ObjKind.kv ∧ o.digest = i then { o with stored := now, data := bs, expires := now + secs ttl } else o
        let s := { s with spl := { s.spl with objs := s.spl.objs.map keep } }
        let away := fun (g : Page) => if g.state = 1 then { g with state := 4 } else g
        .next (s.updReq i fun (r : Request) =>
          { r with state := .spooled, spooling := none, slot := false, kvCard := some c, kvModel := x.model, kvPage := dig (x.sect 9)
                   durableAt := s.clk.wtime, kvExpired := false, pages := r.pages.map away })
/-- SPOOL_IN_COMPLETE: the record is back in the vaults, mass counters start at 0, and the request goes on (R251, R298). A
record lost on the way leaves a re-ingest. -/
def execSpoolInComplete (i : Nat) (s : State) : Out :=
  if i ≥ 131072 then .fault .noSuchUnit
  else
    let r := s.req i
    let p := r.par.part
    if r.state ≠ .spooled ∨ !r.spoolingIn then .next s
    else match s.spl.objs.find? fun o => decide (o.kind = .kv) && decide (o.digest = i) with
      | none => .next (s.reIngestAll i)
      | some o =>
        let (s, _, _, pages) := r.pages.foldl (fun (a : State × List (Nat × Nat) × List Byte × List Page) g =>
          let (s, fs, bs, out) := a
          match g.state, fs with
          | 4, (f, gr) :: fs =>
            let n := s.pageSize p gr
            ((s.kvWrite p f gr (bs.take n)).clearMass p f gr, fs, bs.drop n, out ++ [{ g with f := f, g := gr, state := 1 }])
          | _, _ => (s, fs, bs, out ++ [g])) (s, r.target, o.data.drop (4 * r.pages.length), [])
        let s := s.kvDrop i
        let held := decide ((s.part p).held ≠ 0)
        .next (s.updReq i fun r => ({ r with pages := pages, target := [] }).goOn held)
/-- SPOOL_RETRY: 1 s after a refused write the engine tries again (R296). -/
def execSpoolRetry (i : Nat) (s : State) : Out :=
  if i ≥ 131072 then .fault .noSuchUnit
  else
    let r := s.req i
    if r.state ≠ .paused ∨ r.retryAt = 0 ∨ s.clk.wtime < r.retryAt then .next s else .next (s.beginSpool i)

/-! ### Lifetimes (R276, R281, R294, R296, R297) -/

/-- RESULT_TTL_EXPIRY: an ended request's entry is freed. -/
def execResultTtlExpiry (i : Nat) (s : State) : Out :=
  if i ≥ 131072 then .fault .noSuchUnit
  else
    let r := s.req i
    if !r.used ∨ !r.state.isOver ∨ s.clk.wtime < r.endedAt + secs s.srv.resultTtl then .next s else .next (s.freeEntry i)
/-- HIST_TTL_EXPIRY: a SPOOLED request's history has reached its end: DONE, EXPIRED. -/
def execHistTtlExpiry (i : Nat) (s : State) : Out :=
  if i ≥ 131072 then .fault .noSuchUnit
  else
    let r := s.req i
    if r.state ≠ .spooled ∨ r.spoolingIn ∨ s.clk.wtime < r.idleSince + secs (3600 * s.srv.histTtl) then .next s
    else .next (s.endReq i .done stExpired)
/-- KV_TTL_EXPIRY: the KV record is discarded; a spool-in under way completes (R297, R301). -/
def execKvTtlExpiry (i : Nat) (s : State) : Out :=
  if i ≥ 131072 then .fault .noSuchUnit
  else
    let r := s.req i
    let ttl := if r.par.kvTtl ≠ 0 then r.par.kvTtl else (s.part r.par.part).spool.toNat / 2 ^ 15
    if r.state ≠ .spooled ∨ r.spoolingIn ∨ r.kvCard = none ∨ s.clk.wtime < r.durableAt + secs ttl then .next s
    else .next ((s.kvDrop i).updReq i fun r => { r with kvExpired := true, kvCard := none, resid := [], rho := [], pages := [] })
/-- PAUSE_DWELL_EXPIRY: PAUSE_DWELL has passed since the pause, and the engine spools the request (R296). -/
def execPauseDwellExpiry (i : Nat) (s : State) : Out :=
  if i ≥ 131072 then .fault .noSuchUnit
  else
    let r := s.req i
    let dwell := (s.part r.par.part).spool.toNat % 2 ^ 15
    if r.state ≠ .paused ∨ dwell = 0 ∨ r.retryAt ≠ 0 ∨ s.clk.wtime < r.pausedAt + msecs dwell then .next s else .next (s.beginSpool i)
/-- SPOOL_WAIT_EXPIRY: a spin request has waited SPOOL_WAIT for a frame and is stopped (R294). -/
def execSpoolWaitExpiry (i : Nat) (s : State) : Out :=
  if i ≥ 131072 then .fault .noSuchUnit
  else
    let r := s.req i
    match r.waitSince with
    | none => .next s
    | some t =>
      if r.state ≠ .spin ∨ r.reshard ∨ s.inStep i ∨ s.clk.wtime < t + (s.part r.par.part).spoolWait then .next s else .next (s.shortStop i)
/-- INGEST_WAIT_EXPIRY: a request has waited INGEST_WAIT for ingest or re-shard frames and is stopped (R294). -/
def execIngestWaitExpiry (i : Nat) (s : State) : Out :=
  if i ≥ 131072 then .fault .noSuchUnit
  else
    let r := s.req i
    match r.waitSince with
    | none => .next s
    | some t =>
      if (r.state ≠ .ingest ∧ r.state ≠ .queued) ∨ s.inStep i ∨ s.clk.wtime < t + (s.part r.par.part).ingestWait then .next s
      else .next (s.shortStop i)

/-! ### Token buckets (R290) -/

/-- One millisecond of a bucket: RATE ÷ 1,000 tokens, the remainder kept, to at most DEPTH. -/
def Tenant.refill (t : Tenant) : Tenant :=
  let n := t.frac + 256 * t.rate
  let l := t.level + ((n / 1000 : Nat) : Int)
  let top : Int := ((256 * t.depth : Nat) : Int)
  if l ≥ top ∧ t.level ≤ top then { t with level := top, frac := 0 } else if t.level > top then t else { t with level := l, frac := n % 1000 }
/-- BUCKET_REFILL: every 1 ms of WTIME, for every tenant. -/
def execBucketRefill (s : State) : Out :=
  .next { s with srv := { s.srv with tenants := (s.srv.tenants.map fun (k, t) => (k, t.refill)).filter fun x => decide (x.2 ≠ Tenant.reset) } }

end Sys2Proof.Machine
end

