-- ==== Sys2Proof/Machine/BootOps.lean ====
section
/-!
DEFINITION. Starting and stopping the wafer and the module (R436 to R442, R457).
-/
namespace Sys2Proof.Machine

/-- Class 0x3B (R458): subkind, and a cause in byte 1. -/
def State.startEv (s : State) (sub cause : Nat) : State := s.raise (s.edgeEv 0x3B (sp [(0, 1, sub), (1, 1, cause)]))

/-! ### Stopping -/

/-- What of a vault outlives its supply: row errors, retired rows and spare rows used, which the defect map holds. -/
def Vault.unpowered (v : Vault) : Vault := { Vault.reset with rows := v.rows, retired := v.retired, spares := v.spares }
/-- VCORE and then VVAULT are removed from every region (R439, R441): vaults, pads and registers lose their contents. -/
def State.regionsOff (s : State) : State :=
  let s := (List.range 64).foldl (fun s r => (s.stopClock r).setPwr r 0) s
  let cores : Table Core := s.cores.filterMap fun (c, k) => if k.dead then some (c, { Core.reset with dead := true }) else none
  let vaults : Table Vault := (s.vaults.map fun (c, v) => (c, v.unpowered)).filter fun x => decide (x.2 ≠ Vault.reset)
  let region := fun (g : Region) =>
    { g with part := none, net := RNet.reset, clk := RClk.reset
             pwr := { g.pwr with gust := ⟨0, 0, 0⟩, forced := ⟨0, 0, 0⟩, gustAt := [] }
             agt := { RAgent.reset with unusable := g.agt.unusable, pending := g.agt.pending, ver := g.agt.ver, vver := g.agt.vver } }
  let regions : Table Region := (s.regions.map fun (r, g) => (r, region g)).filter fun x => decide (x.2 ≠ Region.reset)
  { s with cores := cores, vaults := vaults, clusters := [], links := [], tree := { Tree.reset with nextSeq := s.tree.nextSeq }
           regions := regions, pwr := { s.pwr with ons := [] }, clk := { s.clk with selfRefresh := false } }
/-- The wafer powers off: each partition's requests meet a partition event (R300), its transfers end, and it is EMPTY.
What was READY is noted for the next start (R442). -/
def State.waferOff (s : State) (e : PartEvent) : State :=
  let ready := (partNums.filter fun p => decide ((s.part p).state = .ready) || decide ((s.part p).state = .applying)).map
    fun p => { part := p, digest := (s.part p).digest : AutoPart }
  let s := if s.boot.start = 2 then { s with boot := { s.boot with wasReady := ready } } else s
  let s := partNums.foldl (fun s p =>
    if (s.part p).state = .empty then s
    else
      let s := (((s.partEvent p e).stopWork p).endTransfers p).loseChunks p
      s.updPart p Part.free) s
  s.regionsOff

/-! ### Starting (R438) -/

/-- Switch h goes dark, or returns to service, with class 0x1E (R180). -/
def State.hostTo (s : State) (h : Nat) (dark : Bool) : State :=
  let x := if dark then 2 else 0
  if tget s.tree.hosts 0 h = x then s
  else (s.updTree fun t => { t with hosts := tset t.hosts 0 h x }).raise
    (s.edgeEv 0x1E (sp [(0, 1, (!dark).toNat), (2, 2, swIdent (1088 + h))]))
/-- The switch region r hosts. -/
def hostedBy (r : Nat) : Option Nat := if hostRegions.contains r then some (hostRegions.idxOf r) else none
/-- The switch region r hosts goes dark or returns. -/
def State.hostedTo (s : State) (r : Nat) (dark : Bool) : State := match hostedBy r with
  | some h => s.hostTo h dark
  | none => s

/-- Order of power-on at a start. -/
def startOrder : List Nat :=
  let first := [27, 36, 9, 18, 13, 22, 41, 50, 45, 54]
  first ++ (List.range 64).filter fun r => !first.contains r
/-- During a start the next region of the order powers on once no other is under way (R438 step 3). -/
def State.nextPowerOn (s : State) : State :=
  if s.boot.start ≠ 1 ∨ s.pwr.ons ≠ [] then s
  else match s.boot.order with
    | [] => s
    | r :: _ => s.askPower r
/-- Doldrums mode (R440, R441). -/
def State.enterDoldrums (s : State) : State :=
  let s := s.waferOff .doldrums
  { s with boot := { s.boot with start := 4 } }.startEv 2 0
/-- A start fails (R439, R440): the third failure enters Doldrums mode, and a component that was confirming reverts
(R457). -/
def State.startFails (s : State) (cause : Nat) : State :=
  let fails := min 3 (s.boot.fails + 1)
  let s := s.waferOff (if fails = 3 then .doldrums else .down)
  let s := { s with boot := { s.boot with fails := fails, lastCause := cause, start := 3, startAt := s.clk.wtime, order := [] } }.startEv 1 cause
  let s := compNums.foldl (fun s k => s.fwFault k) s
  if fails = 3 then s.enterDoldrums else s
/-- A start whose regions fail to power on fails for cause 5 or 6 of R439, or goes on to the next region (R438). -/
def State.judgeStart (s : State) : State :=
  let failed := s.boot.failedOn
  if failed.contains 27 && failed.contains 36 then s.startFails 5
  else if failed.length > 8 then s.startFails 6
  else s.nextPowerOn
/-- Region r does not power on in this start: it counts for R439, and its hosted switch is dark (R180, R438). -/
def State.failedAtStart (s : State) (r : Nat) : State :=
  let s := s.hostedTo r true
  { s with boot := { s.boot with failedOn := s.boot.failedOn ++ [r], order := s.boot.order.filter (· ≠ r) } }
/-- The active steward orders a start: the PLL locks, the calibration record in force is used, and the regions follow. A
region already unusable is not tried and counts as failing to power on. -/
def State.orderStart (s : State) : State :=
  let s := { s with
    boot := { s.boot with start := 1, startAt := s.clk.wtime, order := startOrder, failedOn := [], calUse := s.boot.cal }
    clk := { s.clk with rootLock := true, refOk := true, selfRefresh := false, mclkFallback := false, lockTries := 0 } }
  ((startOrder.filter fun r => (s.region r).agt.unusable).foldl State.failedAtStart s).judgeStart
/-- A start is ordered and meets a cause of R439 that no other step finds: 2 the reference, 3 a VIN zone or VVAULT stage, 4
agent firmware or microcode, 7 the calibration record, 8 the defect map; any other number stands for none. -/
def State.startWith (s : State) (cause : Nat) : State :=
  if [2, 3, 4, 7, 8].contains cause then s.orderStart.startFails cause else s.orderStart

/-! ### Power loss and boot (R437, R442) -/

/-- Requests a later start restores: those whose history the spool holds, in SPOOLED (R442). -/
def State.park (s : State) : Table Request :=
  s.srv.reqs.filterMap fun (i, r) =>
    if r.used ∧ s.histHeld i then
      let kv := decide (r.state = .spooled) && r.kvCard.isSome && !r.kvExpired
      some (i, { r with state := .spooled, before := .queued, owner := 0, pausePend := false, reshard := false, slot := false, target := []
                        chunks := [], resid := if kv then r.resid else [], rho := if kv then r.rho else [], pages := if kv then r.pages else []
                        kvExpired := !kv, kvCard := if kv then r.kvCard else none, spooling := none, spoolingIn := false, waitSince := none
                        cancelPend := false, retryAt := 0, turnLen := r.turnGot })
    else none
/-- An interface as the start record keeps it: leased addresses are not stored (R305). -/
def Iface.stored (f : Iface) : Iface :=
  { f with ip4 := if f.man4 then f.ip4 else 0, prefix4 := if f.man4 then f.prefix4 else 0, ip6 := if f.man6 then f.ip6 else [0, 0, 0, 0] }
/-- A card through a module reset (R348, R350, R352): what the card itself holds stays, its rebuild resuming with what has
been copied; registers return to their reset values. -/
def Card.afterReset (k : Card) (now : Nat) : Card :=
  { k with busy := false, lost := false, overdrawn := false, req := false, ceCnt := 0, ueCnt := 0, over_ := 0, since := now }
/-- Everything but the boot flash, the fuses, the spool cards and the parts' own condition is lost (R331, R350, R436): the
state of a module in reset. WTIME starts again from the checkpoint (R365). -/
def State.moduleReset (s : State) : State :=
  let z := State.reset
  let s := [0, 1].foldl State.rebuildSoFar s
  let b := s.boot
  let now := s.clk.checkpoint + 2 ^ 40
  let keep : Table Vault := (s.vaults.map fun (c, v) => (c, v.unpowered)).filter fun x => decide (x.2 ≠ Vault.reset)
  let dead : Table Core := s.cores.filterMap fun (c, k) => if k.dead then some (c, { Core.reset with dead := true }) else none
  let kept := fun (r : Nat) (g : Region) =>
    let (cyc, life) := tget s.thm.saved ([0, 0, 0, 0], 0) r
    { g with thm := { g.thm with cyc := cyc, life := life, lifeEv := decide (life > 879609302220) } }
  let region := fun (g : Region) =>
    { Region.reset with
        thm := { RTherm.reset with lBroken := g.thm.lBroken, dBroken := g.thm.dBroken }
        agt := { RAgent.reset with unusable := g.agt.unusable, pending := g.agt.pending } }
  let ready := if b.start = 2 then
      (partNums.filter fun p => decide ((s.part p).state = .ready) || decide ((s.part p).state = .applying)).map
        fun p => { part := p, digest := (s.part p).digest : AutoPart }
    else b.wasReady
  let comp := fun (c : Comp) => if c.state = 1 then { c with state := c.heldState, stage := 0 } else c
  { z with
    pending := s.pending, draws := s.draws, cores := dead, vaults := keep
    regions := (s.regions.map fun (r, g) => (r, kept r (region g))).filter fun x => decide (x.2 ≠ Region.reset)
    srv := { z.srv with parked := s.park }
    spl := { s.spl with
      govEn := true, lifeY := 7, scrubDays := 7, objs := s.spl.objs.filter fun o => decide (o.stored ≠ 0)
      cards := (s.spl.cards.map fun (c, k) => (c, k.afterReset now)).filter fun x => decide (x.2 ≠ Card.reset) }
    evt := { z.evt with slubs := s.evt.slubs, saved := s.evt.saved }
    eth := if b.netRec then { z.eth with
        present := s.eth.present, cfg := s.eth.cfg, pcp := s.eth.pcp, ptp := s.eth.ptp, sessCfg := s.eth.sessCfg
        ifs := (s.eth.ifs.map fun x => (x.1, x.2.stored)).filter fun x => decide (x.2 ≠ Iface.reset) }
      else { z.eth with present := s.eth.present }
    clk := { z.clk with wtime := now, checkpoint := s.clk.checkpoint }
    thm := { z.thm with tBroken := s.thm.tBroken, saved := s.thm.saved }
    pwr := { z.pwr with feedA := s.pwr.feedA, feedB := s.pwr.feedB, groups := s.pwr.groups }
    boot := { z.boot with
      fails := b.fails, lastCause := b.lastCause, wasReady := ready, comps := (b.comps.map fun (k, c) => (k, comp c)).filter fun x => decide (x.2 ≠ Comp.reset)
      owner := b.owner, ownerPend := b.ownerPend, rb := b.rb, debugLock := b.debugLock, isolate := b.isolate
      principals := b.principals, cal := b.cal, netRec := b.netRec, svcPresent := b.svcPresent, svcPower := b.svcPower
      stw := { z.boot.stw with st0 := b.stw.st0, st1 := b.stw.st1, ver0 := b.stw.ver0, ver1 := b.stw.ver1 } } }
/-- Both stewards boot from ROM (R437). p0 and p1: 0 absent, 1 reaches step 4, 2 FAILED; `alt`: the active one came up
from its alternate firmware copy after two attempts; `recover`: SVC_RECOVER is low. An activation cut short has run with the
boot, and ten minutes of confirming begin again. -/
def State.bootRom (s : State) (p0 p1 : Nat) (alt recover : Bool) (cause : Nat) : State :=
  let up0 := decide (p0 = 1) && !recover
  let up1 := decide (p1 = 1) && !recover
  let code := fun (p : Nat) (up act : Bool) => if p = 0 then 0 else if !up then 3 else if act then 1 else 2
  let act := if up0 then 0 else 1
  let v := (s.comp 1).active.version
  let s := { s with boot := { s.boot with
    recover := !(up0 || up1)
    stw := { s.boot.stw with st0 := code p0 up0 up0, st1 := code p1 up1 (!up0), active := act, none := !(up0 || up1), ver0 := v, ver1 := v
                             req := false, safe := false }
    owner := if up0 || up1 then s.boot.owner.or s.boot.ownerPend else s.boot.owner
    ownerPend := if up0 || up1 then none else s.boot.ownerPend } }
  if !(up0 || up1) then s
  else
    let s := compNums.foldl (fun s k =>
      if (s.comp k).state = 3 then s.fwDone k
      else if (s.comp k).state = 5 then s.updComp k fun c => { c with since := s.clk.wtime }
      else s) s
    let s := if alt ∧ (s.comp 1).other.valid then
        (s.updComp 1 fun c => { c with active := c.other, other := c.active, state := 6, back := false }).fwEv 2 0 1
      else s
    if s.boot.fails = 3 then s.enterDoldrums else s.startWith cause

end Sys2Proof.Machine
end

