-- ==== Sys2Proof/Machine/Firmware.lean ====
section
/-!
DEFINITION. Firmware control and boot (R431, R434, R437 to R447, R459, R469).
-/
namespace Sys2Proof.Machine

/-- A SEC register may be written by an owner session alone (R314, R459). -/
def ownerOnly (h : Session) (s : State) (f : State → State × Nat) : State × Nat := if h.role = 2 then f s else (s, stIncompat)
/-- Value of a session's selector register: its default until written (R461). -/
def Session.selAt (h : Session) (addr dflt : Nat) : Nat := (tget (h.sel.map fun x => (x.1, some x.2)) none addr).getD dflt

/-! ### SEC_FW_CTL (R447, R459) -/

/-- Write SEC_FW_CTL: RELAY_ACT, ACTIVATE of a staged image, REVERT before confirmation. -/
def State.writeFwCtl (h : Session) (v : Word) (s : State) : State × Nat :=
  ownerOnly h s fun s =>
    let k := h.selAt 0x10010 1
    let s := { s with boot := { s.boot with relayAct := v.getLsbD 2 } }
    let s := if v.getLsbD 0 ∧ (s.comp k).state = 2 then s.fwStart k false else s
    (if v.getLsbD 1 then s.fwRevert k else s, stOk)
/-- FW_ACTIVATE: a write of SEC_FW_CTL with ACTIVATE 1. -/
def execFwActivate (m : Msg) (relayAct : Bool) (s : State) : Out :=
  s.onRegWrite m 0x1001C fun h s => s.writeFwCtl h (BitVec.ofNat 32 (1 + 4 * relayAct.toNat))
/-- FW_REVERT: a write of SEC_FW_CTL with REVERT 1. -/
def execFwRevert (m : Msg) (relayAct : Bool) (s : State) : Out :=
  s.onRegWrite m 0x1001C fun h s => s.writeFwCtl h (BitVec.ofNat 32 (2 + 4 * relayAct.toNat))
/-- FW_CONFIRM: 10 minutes without a fault of the component; the new image is copied to the other slot (R447). -/
def execFwConfirm (k : Nat) (s : State) : Out :=
  if k = 0 ∨ k > 6 then .fault .noSuchUnit
  else
    let c := s.comp k
    if c.state ≠ 5 ∨ s.clk.wtime < c.since + secs 600 then .next s
    else .next ((s.updComp k fun c => { c with other := c.active, same := true, state := 0 }).fwEv 1 0 k)

/-! ### Activation, part by part (R443) -/

/-- The roles of the stewards are exchanged (R431). -/
def State.swapStewards (s : State) : State :=
  let t := s.boot.stw
  let ok := decide (t.st0 = 1 ∧ t.st1 = 2) || decide (t.st0 = 2 ∧ t.st1 = 1)
  if ok then { s with boot := { s.boot with stw := { t with st0 := t.st1, st1 := t.st0, active := 1 - t.active } } } else s
/-- Firmware of the standby steward. -/
def Stewards.setStandby (t : Stewards) (v : Nat) : Stewards := if t.active = 0 then { t with ver1 := v } else { t with ver0 := v }
/-- The part under way has restarted: none when it may not or has not begun. -/
def State.partRestarted (s : State) (k j : Nat) : Option State :=
  let v := (s.comp k).active.version
  if k = 1 then
    let t := s.boot.stw
    if (if t.active = 0 then t.st1 else t.st0) ≠ 2 then none
    else
      let s := { s with boot := { s.boot with stw := t.setStandby v } }
      some (if j = 0 then s.swapStewards else s)
  else if k = 4 then
    if !(s.card j).present then (if j = 0 then none else some s)
    else if (s.card j).state = 1 then some (s.updCard j fun c => { c with state := 2, version := v }).mirror else none
  else if k = 5 then some s
  else some s
/-- The next part may begin: the first port's links are up again (R443). -/
def State.portBack (s : State) (k j : Nat) : Bool :=
  if k = 5 ∨ k = 6 then (portIfs j).any (fun i => s.eth.link.getLsbD i) || !s.eth.present.getLsbD j || s.eth.bypass else true
/-- COMPONENT_RESTART_DONE: the part of an activation that was restarting is back; the next one follows, and after the
last the component confirms (R443, R447). A card that could not start earlier starts now. -/
def execComponentRestartDone (k : Nat) (s : State) : Out :=
  if k = 0 ∨ k > 6 then .fault .noSuchUnit
  else
    let c := s.comp k
    if c.state ≠ 3 ∨ fwParts k = 0 then .next s
    else match s.partRestarted k c.stage with
      | none => .next (s.fwBegin k c.stage)
      | some t =>
        let j := c.stage + 1
        if j ≥ fwParts k then .next (t.fwDone k)
        else if !s.portBack k c.stage then .next s
        else .next ((t.updComp k fun c => { c with stage := j }).fwBegin k j)

/-! ### Stewards (R431, R434) -/

/-- Write DEV_STW_CTL: REQ powers the standby down, refused unless it is in STANDBY; SWAP exchanges the roles. -/
def State.writeStwCtl (_ : Session) (v : Word) (s : State) : State × Nat :=
  let t := s.boot.stw
  let standby := if t.active = 0 then t.st1 else t.st0
  let t := if !v.getLsbD 1 then { t with req := false, safe := false }
    else if t.req ∨ standby ≠ 2 then t
    else if t.active = 0 then { t with req := true, safe := true, st1 := 0 } else { t with req := true, safe := true, st0 := 0 }
  let s := { s with boot := { s.boot with stw := t } }
  (if v.getLsbD 3 then s.swapStewards else s, stOk)
/-- STEWARD_REMOVAL_REQUEST: a write of DEV_STW_CTL with REQ 1. -/
def execStewardRemovalRequest (m : Msg) (s : State) : Out := s.onRegWrite m 0x100 fun h s => s.writeStwCtl h 2
/-- STEWARD_SWAP: a write of DEV_STW_CTL with SWAP 1. -/
def execStewardSwap (m : Msg) (s : State) : Out := s.onRegWrite m 0x100 fun h s => s.writeStwCtl h 8
/-- STEWARD_INSERTED: a replacement boots in the place of the steward that is not active; it enters STANDBY, or FAILED
where R446 finds it incompatible. -/
def execStewardInserted (f : FwInfo) (s : State) : Out :=
  let t := s.boot.stw
  let old := if t.active = 0 then t.st1 else t.st0
  if t.none ∨ (old ≠ 0 ∧ old ≠ 3) then .next s
  else
    let new := if s.deviceOk 1 f then 2 else 3
    let t := { (if t.active = 0 then { t with st1 := new } else { t with st0 := new }) with req := false, safe := false }
    .next { s with boot := { s.boot with stw := t.setStandby f.version } }
/-- NO_STEWARD: for 20 ms no steward has been in service; every partition goes down for cause 8, the wafer powers off and
the bypass follows R307 (R430). -/
def execNoSteward (s : State) : Out :=
  let t := s.boot.stw
  let other := if t.active = 0 then t.st1 else t.st0
  if t.none ∨ other = 2 ∨ (t.st0 ≠ 1 ∧ t.st1 ≠ 1) then .next s
  else
    let s := partNums.foldl (fun s p => s.downCauseAt p 8) s
    let s := s.waferOff .down
    let t := if t.active = 0 then { t with st0 := 3, none := true } else { t with st1 := 3, none := true }
    .next (({ s with boot := { s.boot with stw := t, start := 0 } }.linksDown (List.range 17)).settleBypass)

/-! ### Boot, start and Doldrums mode (R437 to R442) -/

/-- AUX_RAIL_UP: the auxiliary rail comes into range and the stewards boot from ROM. -/
def execAuxRailUp (p0 p1 : Nat) (alt recover : Bool) (cause : Nat) (s : State) : Out :=
  if p0 > 2 ∨ p1 > 2 then .fault .noSuchUnit
  else if s.boot.start ≠ 0 ∨ s.boot.stw.st0 = 1 ∨ s.boot.stw.st1 = 1 then .next s
  else .next (s.bootRom p0 p1 alt recover cause)
/-- SERVICE_RESET: SVC_RESET low for 100 ms or more: a module reset, and both stewards boot (R331, R469). -/
def execServiceReset (p0 p1 : Nat) (alt recover : Bool) (cause : Nat) (s : State) : Out :=
  if p0 > 2 ∨ p1 > 2 then .fault .noSuchUnit else .next (s.moduleReset.bootRom p0 p1 alt recover cause)
/-- Reload of the partitions that were READY, in ascending number; one that fails stays EMPTY with class 0x3B subkind 3
(R442). -/
def State.autoload (s : State) : State :=
  if !s.boot.autoload then s
  else s.boot.wasReady.foldl (fun s a =>
    match s.loadStored a.part a.digest with
    | .ok s => s
    | .error _ => s.raise (s.partEv a.part 0x3B (sp [(0, 1, 3)]))) s
/-- START_COMPLETE: the last region has reached IDLE: RUNNING, class 0x3B subkind 0, requests and partitions restored. A
start not complete 2 s after its order fails (R439 cause 10). -/
def execStartComplete (s : State) : Out :=
  if s.boot.start ≠ 1 then .next s
  else if s.clk.wtime ≥ s.boot.startAt + secs 2 then .next (s.startFails 10)
  else if s.boot.order ≠ [] ∨ s.pwr.ons ≠ [] then .next s
  else
    let s := s.activateRegions ((List.range 64).filter fun r => (s.region r).part = none)
    let s := { s with boot := { s.boot with start := 2, runAt := s.clk.wtime } }.startEv 0 0
    let s := s.srv.parked.foldl (fun s (i, r) => if (s.req i).used then s else s.updReq i fun _ => { r with idleSince := s.clk.wtime }) s
    let s := { s with srv := { s.srv with parked := [] } }
    .next s.autoload
/-- START_RETRY: 1 s after a failed start a new one is ordered, which may meet a cause (R439). -/
def execStartRetry (cause : Nat) (s : State) : Out :=
  if s.boot.start ≠ 3 ∨ s.clk.wtime < s.boot.startAt + secs 1 then .next s else .next (s.startWith cause)
/-- FAILS_RESET: after 60 s in RUNNING (R440). -/
def execFailsReset (s : State) : Out :=
  if s.boot.start ≠ 2 ∨ s.clk.wtime < s.boot.runAt + secs 60 then .next s
  else .next { s with boot := { s.boot with fails := 0 } }
/-- Write DEV_START: AUTOLOAD, and RETRY in Doldrums mode, which clears FAILS and starts (R440, R459). -/
def State.devStart (cause : Nat) (v : Word) (s : State) : State × Nat :=
  let s := { s with boot := { s.boot with autoload := v.getLsbD 7 } }
  if v.getLsbD 6 ∧ s.doldrums then
    (({ s with boot := { s.boot with fails := 0, start := 0 } }.startEv 4 0).startWith cause, stOk)
  else (s, stOk)
/-- Write DEV_START, with a start that meets no cause of R439 as it is ordered. -/
def State.writeDevStart (_ : Session) (v : Word) (s : State) : State × Nat := s.devStart 0 v
/-- DOLDRUMS_RETRY: a write of DEV_START with RETRY 1. -/
def execDoldrumsRetry (m : Msg) (autoload : Bool) (cause : Nat) (s : State) : Out :=
  s.onRegWrite m 0x10 fun _ s => s.devStart cause (BitVec.ofNat 32 (64 + 128 * autoload.toNat))
/-- SVC_PRESENT_CHANGE: SVC_3V3 is driven only while the cable's PRESENT pin is grounded (R469). -/
def execSvcPresentChange (present : Bool) (s : State) : Out :=
  .next { s with boot := { s.boot with svcPresent := present, svcPower := present } }
/-- BOOT_FLASH_RECOVERY: with the ROM in recovery, vendor-signed firmware goes into the boot flash, into the slot that is
not active; the ROM checks it at the next boot (R437). -/
def execBootFlashRecovery (head body : List Byte) (sig : Bool) (s : State) : Out :=
  let k := leAt head 6 1
  if !s.boot.recover ∨ !sig ∨ k = 0 ∨ k > 6 ∨ leAt head 0 4 ≠ 0x4D495746 then .next s
  else .next (s.updComp k fun c =>
    { c with other := { fwImage head with valid := decide (dig body = leAt head 0x30 64) }, same := false })

end Sys2Proof.Machine
end

