-- ==== Sys2Proof/Machine/Security.lean ====
section
/-!
DEFINITION. Fuses, principals and the calibration record (R448 to R451, R455, R456, R459).
-/
namespace Sys2Proof.Machine

/-- Class 0x3A (R458): subkind, a status in byte 1, the operation or counter in byte 2. -/
def State.secEv (s : State) (sub status op : Nat) : State := s.raise (s.edgeEv 0x3A (sp [(0, 1, sub), (1, 1, status), (2, 1, op)]))

/-! ### Fuses (R448, R449) -/

/-- Components of a counter. -/
def counterComps (c : Nat) : List Nat := compNums.filter fun k => decide (compCounter k = c)
/-- Both slots of each component of a counter hold the same confirmed image. -/
def State.counterReady (s : State) (c : Nat) : Bool :=
  (counterComps c).all fun k => (s.comp k).same && decide ((s.comp k).state = 0 ∨ (s.comp k).state = 6)
/-- Lowest SVN in either slot of a counter's components. -/
def State.lowestSvn (s : State) (c : Nat) : Nat :=
  ((counterComps c).flatMap fun k => [(s.comp k).active.svn, (s.comp k).other.svn]).foldl min 64
/-- A fuse operation of an owner session; none is taken while BUSY, and a second owner digest is refused. -/
def State.fuseOp (s : State) (h : Session) (op counter : Nat) : State :=
  let busy := fun (s : State) => { s with boot := { s.boot with fuseBusy := s.clk.wtime + msecs 10 } }
  if s.clk.wtime < s.boot.fuseBusy then s
  else if op = 1 then
    if s.boot.owner.isSome then s.secEv 4 stIncompat 1
    else (busy { s with boot := { s.boot with owner := some h.digest, ownerPend := some h.digest } }).secEv 0 0 1
  else if op = 2 then (busy { s with boot := { s.boot with debugLock := true, ownerPend := none } }).secEv 0 0 2
  else if op = 3 then (busy { s with boot := { s.boot with isolate := true, ownerPend := none } }).secEv 0 0 3
  else if op = 4 then
    if !s.counterReady counter then s.secEv 4 stIncompat 4
    else
      let v := max (s.rb counter) (min 64 (s.lowestSvn counter))
      (busy { s with boot := { s.boot with rb := s.boot.rb.set counter v, ownerPend := none } }).secEv 1 0 counter
  else s
/-- Write SEC_FUSE_CTL: discarded unless CONFIRM is 0xF05E. -/
def State.writeFuseCtl (h : Session) (v : Word) (s : State) : State × Nat :=
  ownerOnly h s fun s =>
    (if v.toNat / 65536 = 0xF05E then s.fuseOp h (v.toNat % 8) (v.toNat / 16 % 4) else s, stOk)
/-- A value of SEC_FUSE_CTL. -/
def fuseWord (confirm counter op : Nat) : Word := BitVec.ofNat 32 (65536 * confirm + 16 * (counter % 4) + op)
/-- FUSE_OWNER_DIGEST: OP 1 blows the digest of the session's host key. -/
def execFuseOwnerDigest (m : Msg) (confirm : Nat) (s : State) : Out :=
  s.onRegWrite m 0x10004 fun h s => s.writeFuseCtl h (fuseWord confirm 0 1)
/-- FUSE_DEBUG_LOCK: OP 2. -/
def execFuseDebugLock (m : Msg) (confirm : Nat) (s : State) : Out :=
  s.onRegWrite m 0x10004 fun h s => s.writeFuseCtl h (fuseWord confirm 0 2)
/-- FUSE_ISOLATION: OP 3. -/
def execFuseIsolation (m : Msg) (confirm : Nat) (s : State) : Out :=
  s.onRegWrite m 0x10004 fun h s => s.writeFuseCtl h (fuseWord confirm 0 3)
/-- FUSE_COUNTER_ADVANCE: OP 4. -/
def execFuseCounterAdvance (m : Msg) (confirm counter : Nat) (s : State) : Out :=
  s.onRegWrite m 0x10004 fun h s => s.writeFuseCtl h (fuseWord confirm counter 4)

/-! ### Principals (R451) -/

/-- Principal table entry. -/
def State.prAt (s : State) (i : Nat) : Principal := tget s.boot.principals Principal.reset i
/-- A table has a valid owner entry. -/
def hasOwner (t : Table Principal) : Bool := t.any fun x => x.2.valid && decide (x.2.role = 2)
/-- A digest is acceptable for an owner entry (R451). -/
def State.ownerFits (s : State) (e : Principal) : Bool :=
  !(e.valid && decide (e.role = 2)) || decide (s.boot.owner = none) || decide (s.boot.owner = some e.digest)
/-- Store an entry; open sessions whose principal is removed or changed close with their transfers, and class 0x3A. -/
def State.setPrincipal (s : State) (i : Nat) (e : Principal) : State :=
  let old := s.prAt i
  if old = e then s else
  let s := { s with boot := { s.boot with principals := tset s.boot.principals Principal.reset i e } }
  let hit := s.eth.sessions.filterMap fun (n, h) => match h with
    | some h => if old.valid ∧ old.digest = h.digest ∧ old.role = h.role ∧ (h.role ≠ 0 ∨ old.tenant = h.tenant) then some n else none
    | none => none
  let s := hit.foldl (fun s n =>
    let s := (s.xfers.filter fun x => decide (x.ses = n) && !x.verified).foldl (fun s x =>
      let (s, st) := s.draw
      s.xferFails x 0 0 (freeStatus st)) s
    s.closeSession n) s
  s.secEv 2 0 0
/-- Digest of the key shown by SEC_PR_DIGEST: each word as staged by the session, else the entry's. -/
def Session.stagedDigest (h : Session) (e : Principal) : Nat :=
  leNat ((List.range 16).flatMap fun n => leBytes 4 (h.selAt (0x10080 + 4 * n) (e.digest / 2 ^ (32 * n) % 2 ^ 32)))
/-- A session's staged words go. -/
def Session.unstaged (h : Session) : Session := { h with sel := h.sel.filter fun x => decide (x.1 < 0x10048) || decide (0x100BC < x.1) }
/-- Write SEC_PR_CTL: the entry is applied with the session's staged mask and digest. -/
def State.writePrCtl (h : Session) (v : Word) (s : State) : State × Nat :=
  ownerOnly h s fun s =>
    let i := h.selAt 0x10040 0
    let old := s.prAt i
    let e : Principal :=
      { valid := v.getLsbD 0, role := v.toNat / 2 % 4, tenant := v.toNat / 16 % 4096, mask := BitVec.ofNat 16 (h.selAt 0x10048 old.mask.toNat)
        digest := h.stagedDigest old }
    if e.role = 3 then (s, stNoRoom)
    else if !hasOwner s.boot.principals ∨ !s.ownerFits e ∨ !hasOwner (tset s.boot.principals Principal.reset i e) then (s, stOk)
    else (s.setPrincipal i e, stOk)
/-- PRINCIPAL_APPLY: a write of SEC_PR_CTL; it uses up what the session had staged. -/
def execPrincipalApply (m : Msg) (v : Word) (s : State) : Out :=
  s.onRegWrite m 0x10044 fun h s =>
    let (s, st) := s.writePrCtl h v
    (match s.session m.ses with
      | some g => if st = stOk then s.setSession m.ses g.unstaged else s
      | none => s, st)
/-- PRINCIPAL_BOOTSTRAP: while no valid owner entry exists, the service connector writes one. -/
def execPrincipalBootstrap (i : Nat) (mask : BitVec 16) (digest : Nat) (s : State) : Out :=
  if i ≥ 1024 then .fault .noSuchUnit
  else
    let e : Principal := { valid := true, role := 2, tenant := 0, mask := mask, digest := digest % 2 ^ 512 }
    if hasOwner s.boot.principals ∨ !s.ownerFits e then .next s else .next (s.setPrincipal i e)

/-! ### The calibration record (R455, R456) -/

/-- Bytes o to o + n − 1 of a record, as a number. -/
def calAt (t : Table Byte) (o n : Nat) : Nat := leNat ((List.range n).map fun i => tget t 0 (o + i))
/-- Write a field of a record. -/
def calPut (t : Table Byte) (o : Nat) (bs : List Byte) : Table Byte :=
  bs.zipIdx.foldl (fun t (b, i) => tset t 0 (o + i) b) t
/-- Status of a COMMIT: MAGIC, FMT and DIGEST, then SERIAL. -/
def calCheck (t : Table Byte) : Nat :=
  if calAt t 0 4 ≠ 0x524C4143 ∨ calAt t 4 2 ≠ 1 ∨ calAt t 0x40 64 ≠ dig ((List.range 0x3F80).map fun i => tget t 0 (0x80 + i)) then stBadImage
  else if calAt t 0x18 16 ≠ Config.serial % 2 ^ 128 then stIncompat
  else stOk
/-- OPEN: the staging copy starts as the record in force. -/
def State.calOpened (s : State) : State :=
  if s.boot.calOpen then { s with boot := { s.boot with calStatus := stBusy } }
  else { s with boot := { s.boot with calOpen := true, calStage := s.boot.cal, calLast := s.clk.wtime, calStatus := stOk } }
/-- COMMIT of an open staging copy: refused, or in force with WRITES raised and WTIME set; used from the next start. -/
def State.calCommitted (s : State) : State :=
  if !s.boot.calOpen then s
  else
    let t := s.boot.calStage
    let st := calCheck t
    if st ≠ stOk then { s with boot := { s.boot with calStatus := st } }
    else
      let t := calPut (calPut t 8 (leBytes 4 (calAt s.boot.cal 8 4 + 1))) 0x10 (leBytes 8 s.clk.wtime)
      { s with boot := { s.boot with cal := t, calStage := [], calOpen := false, calStatus := stOk } }.secEv 3 0 0
/-- Staging is discarded. -/
def State.calAbandoned (s : State) : State := { s with boot := { s.boot with calOpen := false, calStage := [] } }
/-- Write SEC_CAL_CTL: OPEN, COMMIT and ABANDON, in that order where several are 1. -/
def State.writeCalCtl (h : Session) (v : Word) (s : State) : State × Nat :=
  ownerOnly h s fun s =>
    let s := if v.getLsbD 0 then s.calOpened else s
    let s := if v.getLsbD 1 then s.calCommitted else s
    (if v.getLsbD 2 then s.calAbandoned else s, stOk)
/-- CAL_OPEN. -/
def execCalOpen (m : Msg) (s : State) : Out := s.onRegWrite m 0x10030 fun h s => s.writeCalCtl h 1
/-- CAL_COMMIT. -/
def execCalCommit (m : Msg) (s : State) : Out := s.onRegWrite m 0x10030 fun h s => s.writeCalCtl h 2
/-- CAL_ABANDON. -/
def execCalAbandon (m : Msg) (s : State) : Out := s.onRegWrite m 0x10030 fun h s => s.writeCalCtl h 4
/-- CAL_STAGING_TIMEOUT: 600 s without a write. -/
def execCalStagingTimeout (s : State) : Out :=
  if !s.boot.calOpen ∨ s.clk.wtime < s.boot.calLast + secs 600 then .next s else .next s.calAbandoned

end Sys2Proof.Machine
end

