-- ==== Sys2Proof/Machine/EventRing.lean ====
section
/-!
DEFINITION. The event ring (R422 to R427, R433, R479).
-/
namespace Sys2Proof.Machine

/-- EVT_PERSIST passes over acknowledged records (R425). -/
def Evts.passAcked (e : Evts) : Evts :=
  let n := ((e.ring.filter fun r => !serialLt r.seq e.persist).takeWhile fun r => r.acked).length
  { e with persist := (e.persist + n) % 2 ^ 32 }
/-- While no card accepts writes, records below EVT_ACK are freed, never to be persisted (R425). -/
def State.settleAck (s : State) : State :=
  if s.persistOk then s
  else
    let e := s.evt
    let free := fun (r : EvRec) => if serialLt r.seq e.ack ∧ !serialLt r.seq e.persist then { r with acked := true } else r
    { s with evt := { e with ring := e.ring.map free }.passAcked }
/-- A pending squall as a record (R423, R426). -/
def State.squallRec (s : State) (cls : Nat) (q : Squall) : EvRec :=
  { s.edgeEv cls (sp [(0, 8, q.dropped), (8, 8, q.first), (16, 8, q.last)]) with kind := 1 }
/-- Pending squalls enter while there is room, in ascending class order. -/
def State.squallsIn (s : State) : State :=
  s.evt.squalls.foldl (fun s (cls, q) =>
    if s.evt.room then
      let s := { s with evt := { s.evt with squalls := tset s.evt.squalls ⟨0, 0, 0⟩ cls ⟨0, 0, 0⟩ } }
      s.enterRing (s.squallRec cls q)
    else s) s
/-- EVENT_RECORD_ENTRY: an entry is free, so the pending squalls enter, then the first record of queue q, 0 to 63 a
region agent's, 64 the edge queue (R425, R426). -/
def execEventRecordEntry (q : Nat) (s : State) : Out :=
  if q > 64 then .fault .noSuchUnit
  else
    let s := s.settleAck.squallsIn
    if !s.evt.room ∨ !s.evt.squalls.isEmpty then .next s
    else if q = 64 then
      match s.evt.edge with
      | [] => .next s
      | r :: rest => .next ({ s with evt := { s.evt with edge := rest } }.enterRing r)
    else
      match tget s.evt.queues [] q with
      | [] => .next s
      | r :: rest => .next ({ s with evt := { s.evt with queues := tset s.evt.queues [] q rest } }.enterRing r)

/-- Records of 64 GiB, the most the spool keeps (R336). -/
def savedMost : Nat := 2 ^ 30
/-- A batch may be written now (R427): BATCHES a second at most, and one short of 64 records once its first has waited 1 s. -/
def State.batchDue (s : State) (due : List EvRec) : Bool :=
  let now := s.clk.wtime
  (decide (s.evt.batchAt = 0) || decide (s.evt.batchAt + secs 1 / max 1 s.evt.rate ≤ now + 1))
    && (decide (due.length ≥ 64) || (due.head?.any fun r => decide (now ≥ r.wtime + secs 1)))
/-- EVENT_PERSIST_BATCH: up to 64 records, in SEQ order, are written to the cards that take writes (R427, R336). -/
def execEventPersistBatch (s : State) : Out :=
  let s := s.settleAck
  if !s.persistOk then .next s
  else
    let due := (s.evt.ring.filter fun r => !serialLt r.seq s.evt.persist && !r.acked).take 64
    match due.getLast? with
    | none => .next s
    | some l => if !s.batchDue due then .next s else
      let s := [0, 1].foldl (fun s c => if (s.card c).writes then s.updCard c fun k => k.charge 4096 else s) s
      let saved := s.evt.saved ++ due
      .next { s with evt := { s.evt with saved := saved.drop (saved.length - savedMost), persist := (l.seq + 1) % 2 ^ 32, batchAt := s.clk.wtime + 1 }.passAcked }

/-- Write EVT_ACK: below its current value, or beyond EVT_HEAD, it is discarded (R425, R461). -/
def State.writeEvtAck (_ : Session) (v : Word) (s : State) : State × Nat :=
  let n := v.toNat
  if serialLt n s.evt.ack ∨ serialLt s.evt.head n then (s, stOk)
  else ({ s with evt := { s.evt with ack := n } }.settleAck, stOk)
/-- EVT_ACK: a write of the register. -/
def execEvtAck (m : Msg) (v : Word) (s : State) : Out := s.onRegWrite m 0x70010 fun h s => s.writeEvtAck h v

/-- EVT_READ: FIRST and COUNT (R323, R479). -/
def execEvtRead (m : Msg) (first count : Nat) (s : State) : Out :=
  s.onMsg m 7 1 8 (decide (1 ≤ count) && decide (count ≤ 128)) false fun _ s =>
    let tail := s.evt.tail
    let from_ := if serialLt first tail then tail else first
    let rs := ((s.evt.ring.filter fun r => !serialLt r.seq from_).take count)
    let rs := if serialLt first s.evt.head ∨ serialLt first tail then rs else []
    let dropped := if serialLt first tail then min 0xFFFF ((tail + 2 ^ 32 - first) % 2 ^ 32) else 0
    (s, some (stOk, beBytes 4 from_ ++ beBytes 2 rs.length ++ beBytes 2 dropped ++ rs.flatMap EvRec.bytes))
/-- EVT_SUB: the session takes records of these classes as they enter the ring (R323, R427). -/
def execEvtSub (m : Msg) (classes : BitVec 64) (s : State) : Out :=
  s.onMsg m 7 2 8 true false fun _ s =>
    match s.session m.ses with
    | none => (s, some (stOk, []))
    | some h => (s.setSession m.ses { h with evts := classes }, some (stOk, []))

end Sys2Proof.Machine
end

