-- ==== Sys2Proof/Machine/SpoolCards.lean ====
section
/-!
DEFINITION. Spool cards in and out of service, scrubbing, the wear governor and key shredding (R335, R340 to R349, R351,
R352).
-/
namespace Sys2Proof.Machine

/-- Class 0x35 (R351): 0 removed, 1 inserted, 2 link degraded, 3 FAILED, 4 SAFE, with link width and rate. -/
def State.cardEv (s : State) (c what width rate : Nat) : State :=
  s.raise (s.edgeEv 0x35 (sp [(0, 1, c), (1, 1, what), (2, 1, width), (3, 1, rate)]))
/-- Class 0x36: 0 rebuild started, 1 completed, 2 ended incomplete, with the bytes copied. -/
def State.mirrorEv (s : State) (c what bytes : Nat) : State := s.raise (s.edgeEv 0x36 (sp [(0, 1, c), (1, 1, what), (8, 8, bytes)]))
/-- Class 0x30 to 0x33 (R341, R344): card, tier, package, block, object. -/
def State.nandEv (s : State) (cls c tier pkg block obj : Nat) : State :=
  s.raise (s.edgeEv cls (sp [(0, 1, c), (1, 1, tier), (2, 2, pkg), (4, 4, block), (8, 8, obj)]))

/-! ### The wear governor (R345, R346) -/

/-- Seconds of T_life. -/
def Spool.life (p : Spool) : Nat := p.lifeY * 31557600
/-- The formula of R345 in MB/s, rounded down to a multiple of 5; `a` is A × 100. -/
def budget (life pe a service : Nat) : Nat := 35184372088832 * (3000 - pe) * 100 / (max 1 a * (life - service)) / (5 * megabyte) * 5
/-- RATE₀: that of a new card. -/
def Spool.rate0 (p : Spool) : Nat := budget p.life 0 210 0
/-- Write amplification × 100 of a card that measures `a` and has received `sent` bytes: 2.1 until 1 TB (R345). -/
def ampOf (a sent : Nat) : Nat := if sent < 1000000000000 then 210 else a
/-- Recompute a card's budget. Past T_life the formula gives no value: `f` is free. -/
def Card.govern (k : Card) (p : Spool) (f : Nat) : Card :=
  let r := if k.service < p.life then budget p.life k.peMean k.aX100 k.service else f / 5 * 5
  { k with rate0 := p.rate0, rate := min r p.rate0 }
/-- GOVERNOR_RECOMPUTE: at a start and every 24 hours, from the card's measured write amplification × 100 and mean erase
count. -/
def execGovernorRecompute (c a pe : Nat) (s : State) : Out :=
  if c > 1 then .fault .noSuchUnit
  else if !(s.card c).present then .next s
  else
    let (s, f) := s.draw
    .next (s.updCard c fun k => ({ k with aX100 := ampOf a k.sent, peMean := pe }).govern s.spl f)
/-- GOVERNOR_REFILL: every second the level rises by RATE, to at most DEPTH. -/
def execGovernorRefill (c : Nat) (s : State) : Out :=
  if c > 1 then .fault .noSuchUnit
  else if !(s.card c).present then .next s
  else .next (s.updCard c fun k =>
    { k with service := k.service + 1
             level := if k.level ≥ k.depth then k.level else min k.depth (k.level + ((k.rate * megabyte : Nat) : Int)) })

/-! ### Rebuild (R348) -/

/-- A card begins its rebuild from the other. -/
def State.startRebuild (s : State) (c : Nat) : State :=
  (s.updCard c fun k => { k with state := 3, since := s.clk.wtime, copied := 0 }).mirrorEv c 0 0
/-- SPOOL_REBUILD_COMPLETE: every mirrored object has its copy; the card is READY. -/
def execSpoolRebuildComplete (c : Nat) (s : State) : Out :=
  if c > 1 then .fault .noSuchUnit
  else if (s.card c).state ≠ 3 then .next s
  else
    let l := s.toCopy c
    let bytes := l.foldl (fun n o => n + o.size) 0
    let bytes := (s.card c).copied + bytes
    let s := s.copyTo c l
    let s := (s.updCard c fun k => { k with state := 2 }).updCard (1 - c) fun k => { k with busy := false }
    .next ((s.mirrorEv c 1 bytes).mirror)

/-! ### Leaving service (R347, R349) -/

/-- A card's copies go: KV records and sole copies are lost to their users, LOST tells of an object that has no copy
left, KV records with it where `kv` says so. The card keeps what it holds, for the comparison of R348. -/
def State.cardOut (s : State) (c : Nat) (kv : Bool) : State :=
  let s := (s.rebuildSoFar 0).rebuildSoFar 1
  let mine := s.spl.objs.filter fun o => o.cards.testBit c && decide (o.stored ≠ 0)
  let sole := mine.any fun o => decide (o.cards = 2 ^ c) && (kv || decide (o.kind ≠ .kv))
  let s := (s.spl.objs.filter fun o => o.cards.testBit c).foldl (fun s o => s.dropCopy o.id c) s
  s.updCard c fun k => { k with held := (mine.filter fun o => o.kind.mirrored).map fun o => (o.id, o.cur), lost := k.lost || sole }
/-- A rebuild from a card that leaves ends: the other card stays single-copy (R350). -/
def State.endRebuildFrom (s : State) (c : Nat) : State :=
  if (s.card (1 - c)).state = 3 then
    (s.updCard (1 - c) fun k => { k with state := 2 }).mirrorEv (1 - c) 2 (s.card (1 - c)).copied
  else s
/-- KV records on their way to a card are abandoned; their requests stay PAUSED (R301, R347). -/
def State.stopSpoolOuts (s : State) (c : Nat) : State :=
  s.reqIdxs.foldl (fun s i => if (s.req i).spooling = some c then
    (s.kvDrop i).updReq i fun r => { r with spooling := none, retryAt := s.clk.wtime + secs 1 } else s) s

/-- Erase a card: what it held goes, it starts at half of DEPTH and is rebuilt (R346, R348 step 4, R352). -/
def State.format (s : State) (c : Nat) : State :=
  let s := ((s.stopSpoolOuts c).cardOut c false).endRebuildFrom c
  let (s, f) := s.draw
  let s := s.updCard c fun k =>
    let k := ({ k with held := [] }).govern s.spl f
    { k with level := k.depth / 2 }
  s.startRebuild c
/-- Write SPL_C_CTL: REQ and FORMAT. -/
def State.writeCardCtl (c : Nat) (_ : Session) (v : Word) (s : State) : State × Nat :=
  let k := s.card c
  let s :=
    if v.getLsbD 0 then
      if k.req ∨ k.state = 0 then s
      else if (s.card (1 - c)).state = 3 then s.updCard c fun k => { k with busy := true }
      else (s.updCard c fun k => { k with req := true }).stopSpoolOuts c
    else if k.req ∧ k.state = 7 then s.updCard c fun k => { k with req := false, state := 1 }
    else s
  let st := (s.card c).state
  (if v.getLsbD 1 ∧ (st = 5 ∨ st = 2) ∧ !(s.card c).req then s.format c else s, stOk)
/-- Address of SPL_C_CTL. -/
def cardCtl (c : Nat) : Nat := 0x60104 + 0x100 * c
/-- SPOOL_CARD_REMOVAL_REQUEST: a write of SPL_C_CTL with REQ 1. -/
def execSpoolCardRemovalRequest (m : Msg) (c : Nat) (s : State) : Out :=
  if c > 1 then .fault .noSuchUnit else s.onRegWrite m (cardCtl c) fun h s => s.writeCardCtl c h 1
/-- SPOOL_CARD_REQ_CLEAR: a write of SPL_C_CTL with REQ 0; a SAFE card trains again. -/
def execSpoolCardReqClear (m : Msg) (c : Nat) (s : State) : Out :=
  if c > 1 then .fault .noSuchUnit else s.onRegWrite m (cardCtl c) fun h s => s.writeCardCtl c h 0
/-- FORMAT: a write of SPL_C_CTL with FORMAT 1. -/
def execFormat (m : Msg) (c : Nat) (s : State) : Out :=
  if c > 1 then .fault .noSuchUnit else s.onRegWrite m (cardCtl c) fun h s => s.writeCardCtl c h 2
/-- SPOOL_CARD_SAFE: step 3 of R347. -/
def execSpoolCardSafe (c : Nat) (s : State) : Out :=
  if c > 1 then .fault .noSuchUnit
  else
    let k := s.card c
    if !k.req ∨ k.state = 7 ∨ k.state = 0 then .next s
    else .next ((((s.cardOut c false).endRebuildFrom c).updCard c fun k => { k with state := 7 }).cardEv c 4 0 0)
/-- A card leaves without a request (R349). -/
def State.cardLost (s : State) (c : Nat) : State :=
  if !(s.card c).present then s
  else
    let s := ((s.stopSpoolOuts c).cardOut c true).endRebuildFrom c
    (s.updCard c fun k => { k with present := false, state := 0, req := false, busy := false, degraded := false, sparePct := 0 }).cardEv c 0 0 0
/-- SPOOL_CARD_LOST: the card is gone, with or without a request (R349). -/
def execSpoolCardLost (c : Nat) (s : State) : Out :=
  if c > 1 then .fault .noSuchUnit else .next (s.cardLost c)

/-! ### Entering service (R348) -/

/-- What a card brings. -/
inductive CardKind where
  | blank | foreign | own
  deriving DecidableEq, Repr
/-- Kind from its code: 0 blank, 1 FOREIGN, 2 a card of this module. -/
def cardKind (n : Nat) : CardKind := if n = 0 then .blank else if n = 1 then .foreign else .own
/-- SPOOL_CARD_INSERTED: the link has trained to a width and rate, the firmware is checked, and a blank card is
formatted, a FOREIGN one waits, and one of this module keeps the mirrored objects that are still current. The card tells
its spare blocks, mean erase count, powered seconds, write amplification × 100 and the bytes it has received. -/
def execSpoolCardInserted (c : Nat) (f : FwInfo) (kind width rate spare pe service a sent : Nat) (s : State) : Out :=
  if c > 1 then .fault .noSuchUnit
  else
    let k := s.card c
    if k.present ∧ k.state ≠ 1 then .next s
    else
      let degraded := decide (width < 16) || decide (rate < 64)
      let s := s.updCard c fun k =>
        { k with present := true, degraded := degraded, version := f.version, sparePct := spare, peMean := pe, service := service, req := false
                 aX100 := ampOf a sent, sent := sent, retired := if kind ≤ 1 then [] else k.retired, tier4 := if kind ≤ 1 then [] else k.tier4
                 held := if kind ≤ 1 then [] else k.held }
      let s := s.cardEv c 1 width rate
      let s := if degraded then s.cardEv c 2 width rate else s
      if !s.deviceOk 4 f then .next (((s.updCard c fun k => { k with state := 6 }).cardEv c 3 width rate).fwFault 4)
      else match cardKind kind with
        | .blank => .next (s.format c)
        | .foreign => .next (s.updCard c fun k => { k with state := 5 })
        | .own =>
          let keep := fun (o : SpoolObj) =>
            if o.kind.mirrored && o.cards.testBit (1 - c) && (s.card c).held.contains (o.id, o.cur) then { o with cards := o.cards ||| 2 ^ c } else o
          let s := { s with spl := { s.spl with objs := s.spl.objs.map keep } }
          let (s, x) := s.draw
          .next ((s.updCard c fun k => ({ k with held := [] }).govern s.spl x).startRebuild c)

/-! ### Scrubbing and block retirement (R341 to R344) -/

/-- A codeword of an object fails at tier 5 on a card (R342): rewritten from the other copy, or lost. -/
def State.codewordLost (s : State) (c obj : Nat) : State :=
  let s := (s.rebuildSoFar 0).rebuildSoFar 1
  match s.spl.objs.find? fun o => decide (o.id = obj) with
  | none => s
  | some o =>
    if !o.cards.testBit c ∨ o.cards.testBit (1 - c) then s
    else (s.dropCopy obj c).updCard c fun k => { k with lost := true }
/-- Retire a block (R344): class 0x33; below 2 % of spare blocks the card is READ_ONLY. -/
def State.retireBlock (s : State) (c tier pkg block obj spare : Nat) : State :=
  let stop := decide (spare < 2) && (decide ((s.card c).state = 2) || decide ((s.card c).state = 3))
  let s := if stop then (s.rebuildSoFar c).stopSpoolOuts c else s
  let s := s.updCard c fun k =>
    { k with retired := k.retired ++ [block], sparePct := spare, state := if stop then 4 else k.state }
  s.nandEv 0x33 c tier pkg block obj
/-- SPOOL_SCRUB: a block of a package is read and its worst codeword, of an object, needs a tier; `old` is whether its
corrected bits or its age ask for a refresh, `fail` whether a program or erase fails, `bytes` its valid data and `spare`
the percentage of spare blocks after it. -/
def execSpoolScrub (c pkg block tier obj bytes spare : Nat) (old fail : Bool) (s : State) : Out :=
  if c > 1 then .fault .noSuchUnit
  else
    let st := (s.card c).state
    if (st ≠ 2 ∧ st ≠ 3 ∧ st ≠ 4) ∨ (s.card c).retired.contains block then .next s
    else
      let now := s.clk.wtime
      let before := tget (s.card c).tier4 0 block
      let again := decide (tier = 4) && decide (before ≠ 0) && decide (now < before + secs (30 * 86400))
      let s := s.updCard c fun k =>
        { k with scrubbed := k.scrubbed + 1, tier4 := if tier = 4 then tset k.tier4 0 block (now + 1) else k.tier4
                 ceCnt := if 2 ≤ tier ∧ tier ≤ 4 then satInc k.ceCnt else k.ceCnt, ueCnt := if tier ≥ 5 then satInc k.ueCnt else k.ueCnt }
      let s := if tier = 2 ∨ tier = 3 then s.nandEv 0x30 c tier pkg block obj
        else if tier = 4 then s.nandEv 0x31 c tier pkg block obj
        else if tier ≥ 5 then (s.nandEv 0x32 c 5 pkg block obj).codewordLost c obj
        else s
      let s := if tier ≥ 2 ∨ old then (if (s.card c).writes then s.updCard c fun k => k.charge bytes else s) else s
      .next (if fail ∨ again ∨ tier ≥ 5 then s.retireBlock c (min 5 tier) pkg block obj spare else s)

/-! ### Shredding (R340) -/

/-- A tenant's key generation rises: PAUSED and SPOOLED requests end DONE, EXPIRED; the others' histories are written
again under the new key; objects under the old key go. -/
def State.shredTenant (s : State) (t : Nat) : State :=
  let old := s.keyGen t
  let new := (old + 1) % 2 ^ 31
  let s := { s with spl := { s.spl with gens := tset s.spl.gens 0 t new } }
  let mine := s.reqIdxs.filter fun i => decide ((s.req i).par.tenant = t) && (s.req i).live
  let ends := mine.filter fun i => decide ((s.req i).state = .paused) || decide ((s.req i).state = .spooled)
  let s := s.endMany (ends.map fun i => (i, ReqState.done, stExpired))
  let s := (mine.filter fun i => !ends.contains i && (s.req i).chunks ≠ []).foldl State.histWrite s
  s.dropObj fun o => (decide (o.kind = .history) || decide (o.kind = .kv)) && decide (o.tenant = t) && decide (o.gen ≠ new)
/-- Write SPL_TK_CTL. -/
def State.writeTkCtl (h : Session) (v : Word) (s : State) : State × Nat :=
  (if v.getLsbD 31 then s.shredTenant (h.selAt 0x60040 0) else s, stOk)
/-- SHRED: a write of SPL_TK_CTL with SHRED 1. -/
def execShred (m : Msg) (s : State) : Out := s.onRegWrite m 0x60044 fun h s => s.writeTkCtl h 0x80000000

end Sys2Proof.Machine
end

