-- ==== Sys2Proof/Machine/RegMap.lean ====
section
/-!
DEFINITION. The words of the register window (R460 to R463): what a register holds, without any effect of reading it.
Register tables: R46, R74, R137, R162, R163, R184, R223, R253, R274, R303, R333, R352, R373, R393, R407, R433 to R435,
R459, R462, R463.
-/
namespace Sys2Proof.Machine

/-- Word n, least significant first, of a number (R13). -/
def wordAt (x n : Nat) : Nat := x / 2 ^ (32 * n) % 2 ^ 32
/-- A signed number in a field of n bits. -/
def inField (n : Nat) (x : Int) : Nat := (x % (2 ^ n : Nat)).toNat
/-- A field at a bit. -/
def at_ (lo : Nat) (b : Bool) : Nat := b.toNat * 2 ^ lo
/-- Low and latched high word (R461): the session's latch, or the value itself before the first read of the LO word. -/
def Session.hi (h : Session) (addr x : Nat) : Nat :=
  ((tget (h.latch.map fun y => (y.1, some y.2)) none addr).map (·.toNat)).getD (wordAt x 1)

/-- Sharing group g = 16 × region + cluster. -/
def State.grp (s : State) (g : Nat) : Group := tget s.pwr.groups Group.reset g
/-- Update a sharing group. -/
def State.updGrp (s : State) (g : Nat) (f : Group → Group) : State :=
  { s with pwr := { s.pwr with groups := tupd s.pwr.groups Group.reset g f } }
/-- Path-resistance baseline of a group, from the record the running start uses (R389, R455). -/
def State.pathBase (s : State) (g : Nat) : Nat := calAt s.boot.calUse (0x2900 + 2 * g) 2

/-! ### DEV and SEC (R434, R459, R462) -/

/-- DEV block. -/
def State.devWord (s : State) (o : Nat) : Nat :=
  let t := s.boot.stw
  let ok := fun (m : Nat) => (List.range 32).foldl (fun n i => n + at_ i (!(s.region (m + i)).agt.unusable)) 0
  if o < 0x10 then wordAt (Config.serial % 2 ^ 128) (o / 4)
  else match o with
    | 0x10 => s.boot.start % 16 + 16 * (s.boot.fails % 4) + at_ 7 s.boot.autoload + 2 ^ 16 * (s.boot.lastCause % 256)
    | 0x20 => 0x64000000 + Config.factory 1 % 2 ^ 16
    | 0x24 => wordAt (Config.factory 0) 0
    | 0x28 => wordAt (Config.factory 0) 1 % 2 ^ 16
    | 0x30 => ok 0
    | 0x34 => ok 32
    | 0x100 => t.active % 2 + at_ 1 t.req + at_ 2 t.safe + 2 ^ 8 * (t.st0 % 4) + 2 ^ 10 * (t.st1 % 4)
    | _ => 0
/-- SEC block, as a session sees it. -/
def State.secWord (s : State) (h : Session) (o : Nat) : Nat :=
  let k := h.selAt 0x10010 1
  let c := s.comp k
  let i := h.selAt 0x10040 0
  let e := s.prAt i
  if 0x80 ≤ o ∧ o < 0xC0 then wordAt (h.stagedDigest e) ((o - 0x80) / 4)
  else if 0xC000 ≤ o then calAt (if s.boot.calOpen then s.boot.calStage else s.boot.cal) (o - 0xC000) 4
  else match o with
    | 0x00 => s.rb 0 + 2 ^ 7 * s.rb 1 + 2 ^ 14 * s.rb 2 + 2 ^ 21 * s.rb 3 + at_ 28 s.boot.owner.isSome + at_ 29 s.boot.debugLock
        + at_ 30 s.boot.isolate + at_ 31 (decide (s.clk.wtime < s.boot.fuseBusy))
    | 0x10 => k
    | 0x14 => c.active.version
    | 0x18 => c.state % 8 + at_ 7 c.same + 2 ^ 8 * (c.active.svn % 256)
    | 0x1C => at_ 2 s.boot.relayAct
    | 0x34 => s.boot.calStatus % 256 + at_ 8 s.boot.calOpen + 2 ^ 16 * (calAt s.boot.cal 8 4 % 2 ^ 16)
    | 0x40 => i
    | 0x44 => at_ 0 e.valid + 2 * e.role + 16 * e.tenant
    | 0x48 => h.selAt 0x10048 e.mask.toNat
    | _ => 0

/-! ### CLK, PWR and THM (R373, R393, R407) -/

/-- CLK block. -/
def State.clkWord (s : State) (h : Session) (o : Nat) : Nat :=
  let k := s.clk
  match o with
  | 0x00 => at_ 0 k.rootLock + at_ 1 k.refOk + at_ 2 k.selfRefresh + at_ 3 k.mclkFallback + 16 * (k.alnState % 4)
  | 0x04 => wordAt k.domFault.toNat 0
  | 0x08 => wordAt k.domFault.toNat 1
  | 0x0C => wordAt k.domFault.toNat 2
  | 0x10 => wordAt k.wtime 0
  | 0x14 => h.hi 0x20014 k.wtime
  | 0x20 => k.alnSrc
  | 0x24 => k.alnSeq.toNat
  | 0x28 => wordAt k.alnW0 0
  | 0x2C => wordAt k.alnW0 1
  | 0x30 => wordAt k.alnT0s 0
  | 0x34 => wordAt k.alnT0s 1 % 2 ^ 16
  | 0x38 => k.alnT0ns
  | 0x3C => inField 32 k.alnRate
  | 0x40 => inField 32 k.alnOfs
  | _ => 0
/-- PWR block. -/
def State.pwrWord (s : State) (h : Session) (o : Nat) : Nat :=
  let w := s.pwr
  let g := s.grp (h.selAt 0x30020 0)
  let joules := w.energy / 100000
  if 0x1000 ≤ o ∧ o < 0x1100 then
    let x := s.part ((o - 0x1000) / 16)
    match o % 16 with
    | 0 => x.powCap % 512 + 2 ^ 16 * (x.powW % 2 ^ 16)
    | 4 => x.lullShare % 256
    | 8 => x.powLull.toNat
    | 12 => x.energy / 100000000
    | _ => 0
  else match o with
    | 0x00 => at_ 0 w.feedA.ok + at_ 1 w.feedB.ok + at_ 2 w.feedA.on + at_ 3 w.feedB.on
        + at_ 4 (w.groups.any fun x => decide (x.2.ok ≠ 0xF)) + at_ 5 (w.groups.any fun x => x.2.crack)
    | 0x04 => w.feedA.cur % 2 ^ 16 + 2 ^ 16 * (w.feedA.volt % 2 ^ 16)
    | 0x08 => w.feedB.cur % 2 ^ 16 + 2 ^ 16 * (w.feedB.volt % 2 ^ 16)
    | 0x0C => at_ 0 w.feedA.req + at_ 1 w.feedB.req + at_ 2 w.feedA.safe + at_ 3 w.feedB.safe
    | 0x10 => w.pin % 2 ^ 16 + 2 ^ 16 * (w.peak % 2 ^ 16)
    | 0x14 => wordAt joules 0
    | 0x18 => h.hi 0x30018 joules
    | 0x20 => h.selAt 0x30020 0
    | 0x24 => g.limit % 32 + 2 ^ 8 * g.ok.toNat + at_ 14 g.dark + at_ 15 g.crack
    | 0x28 => g.cur % 2 ^ 16 + 2 ^ 16 * (g.peak % 2 ^ 16)
    | 0x2C => g.now % 2 ^ 16 + 2 ^ 16 * s.pathBase (h.selAt 0x30020 0)
    | _ => 0
/-- Reading of a thermistor pair member in a 14-bit field: 0x2000 where both of the pair are BROKEN (R396), its partner's
where it alone is. -/
def Thermal.thermAt (t : Thermal) (i : Nat) : Nat :=
  let j := if i % 2 = 0 then i + 1 else i - 1
  let v := fun i => inField 14 (t.therm.getD i 0)
  if !t.tBroken.getLsbD i then v i else if !t.tBroken.getLsbD j then v j else 0x2000
/-- Inlet (i = 0) or outlet (i = 2) temperature, or none where its pair is BROKEN. -/
def Thermal.pairAt (t : Thermal) (i : Nat) (v : Int) : Nat :=
  if t.tBroken.getLsbD i && t.tBroken.getLsbD (i + 1) then 0x2000 else inField 14 v
/-- THM block. -/
def State.thmWord (s : State) (o : Nat) : Nat :=
  let t := s.thm
  if 0x1000 ≤ o ∧ o < 0x1100 then
    let p := (o - 0x1000) / 16
    if o % 16 = 0 then (s.part p).thmShare % 32 + 2 ^ 8 * (tget t.hotRgn 64 p % 64) else 0
  else match o with
    | 0x00 => t.period % 2 ^ 16 + at_ 16 t.glycol
    | 0x04 => inField 14 t.hotTemp + 2 ^ 18 * (t.hotRegion % 64)
    | 0x08 => t.sweeps.toNat
    | 0x10 => t.cool.toNat
    | 0x14 => t.pairAt 0 t.inlet + 2 ^ 16 * t.pairAt 2 t.outlet
    | 0x18 => t.flow % 2 ^ 16
    | 0x1C => t.thermAt 4 + 2 ^ 16 * t.thermAt 5
    | 0x20 => t.thermAt 6 + 2 ^ 16 * t.thermAt 7
    | _ => 0

/-! ### ETH, SPL and EVT (R333, R352, R433) -/

/-- ETH block. -/
def State.ethWord (s : State) (h : Session) (o : Nat) : Nat :=
  let e := s.eth
  let i := min 16 (h.selAt 0x50010 0)
  let f := s.iface i
  match o with
  | 0x00 => e.cfg.toNat
  | 0x04 => e.link.toNat
  | 0x08 => at_ 0 e.bypass + 2 * e.oeReady.toNat + 8 * (e.force % 4)
  | 0x0C => e.req.toNat + 2 ^ 8 * e.safe.toNat + 2 ^ 16 * e.present.toNat
  | 0x10 => i
  | 0x14 => f.ip4.toNat
  | 0x18 => f.prefix4 % 64 + at_ 6 (f.dhcp && decide (i = 16)) + at_ 7 f.en
  | 0x20 => (f.ip6.getD 0 0).toNat
  | 0x24 => (f.ip6.getD 1 0).toNat
  | 0x28 => (f.ip6.getD 2 0).toNat
  | 0x2C => (f.ip6.getD 3 0).toNat
  | 0x30 => f.vid % 4096 + at_ 12 f.tag
  | 0x40 => e.pcp.toNat
  | 0x50 => e.ptp.toNat
  | 0x60 => (e.sessions.filter fun x => x.2.isSome).length + 2 ^ 16 * e.half.length
  | 0x64 => e.retx.toNat
  | 0x68 => e.drop.toNat
  | 0x6C => e.fwd.toNat
  | 0x70 => e.sessCfg % 2 ^ 16
  | _ => 0
/-- Registers of a spool card. -/
def State.cardWord (s : State) (c o : Nat) : Nat :=
  let k := s.card c
  match o with
  | 0x00 => k.state % 16 + at_ 4 k.present + at_ 5 k.degraded + at_ 6 (decide (k.state = 7)) + at_ 7 (k.busy && decide ((s.card (1 - c)).state = 3)) + at_ 8 k.lost
      + at_ 9 k.overdrawn
  | 0x04 => at_ 0 k.req
  | 0x08 => k.rate % 2 ^ 16 + 2 ^ 16 * (k.rate0 % 2 ^ 16)
  | 0x0C => inField 32 (k.level.tdiv megabyte)
  | 0x10 => k.peMean % 2 ^ 16 + 2 ^ 16 * (k.sparePct % 128) + 2 ^ 23 * (k.aX100 % 512)
  | 0x14 => if k.present then (cardBytes - s.cardUsed c) / 2 ^ 30 else 0
  | 0x18 => k.ceCnt.toNat
  | 0x1C => k.ueCnt.toNat
  | 0x20 => min 0xFFFFFFFF (k.over_ / megabyte)
  | _ => 0
/-- SPL block. -/
def State.splWord (s : State) (h : Session) (o : Nat) : Nat :=
  if 0x100 ≤ o ∧ o < 0x300 then s.cardWord ((o - 0x100) / 0x100) (o % 0x100)
  else match o with
    | 0x00 => s.spl.scrubDays % 256 + 2 ^ 8 * (s.spl.lifeY % 256) + at_ 16 s.spl.govEn
    | 0x40 => h.selAt 0x60040 0
    | 0x44 => s.keyGen (h.selAt 0x60040 0) % 2 ^ 31
    | _ => 0
/-- EVT block. -/
def State.evtWord (s : State) (h : Session) (o : Nat) : Nat :=
  let e := s.evt
  let pend := e.squalls.foldl (fun n x => n + (if x.1 < 64 then 2 ^ x.1 else 0)) 0
  let b := (e.slubs.map fun b => [b.w0, b.w1, b.w2, b.w3]).getD (h.selAt 0x70044 0) [0, 0, 0, 0]
  let w := fun (n : Nat) => (b.getD n 0).toNat
  if 0x400 ≤ o ∧ o < 0x600 then
    let n := tget e.counts 0 ((o - 0x400) / 8)
    if o % 8 = 0 then wordAt n 0 else h.hi (0x70000 + o) n
  else match o with
    | 0x00 => at_ 0 (!e.room) + at_ 1 s.persistOk + 2 ^ 8 * e.squalls.length
    | 0x04 => e.head % 2 ^ 32
    | 0x08 => e.tail % 2 ^ 32
    | 0x0C => e.persist % 2 ^ 32
    | 0x10 => e.ack % 2 ^ 32
    | 0x14 => e.rate % 32
    | 0x18 => wordAt e.mask.toNat 0
    | 0x1C => h.hi 0x7001C e.mask.toNat
    | 0x20 => wordAt pend 0
    | 0x24 => h.hi 0x70024 pend
    | 0x40 => e.slubs.length
    | 0x44 => h.selAt 0x70044 0
    | 0x48 => w 0
    | 0x4C => w 1
    | 0x50 => w 2
    | 0x54 => w 3
    | _ => 0

/-! ### SRV (R74, R223, R253, R274, R303, R435) -/

/-- Code of a partition's STATE (R223). -/
def PartState.code : PartState → Nat
  | .empty => 0 | .receiving => 1 | .verifying => 2 | .loading => 3 | .ready => 4 | .applying => 5 | .down => 6 | .unloading => 7
/-- Requests of a partition in a state. -/
def State.countIn (s : State) (p : Nat) (q : ReqState) : Nat := (s.partReqs p fun r => r.used && decide (r.state = q)).length
/-- Device-wide serving registers and the tenant window. -/
def State.srvTop (s : State) (h : Session) (o : Nat) : Nat :=
  let t := s.tenant (h.selAt 0x80040 0)
  match o with
  | 0x00 => s.srv.resultTtl % 2 ^ 16 + 2 ^ 16 * (s.srv.histTtl % 2 ^ 16)
  | 0x04 => s.reqIdxs.length
  | 0x08 => (s.srv.reqs.filter fun x => x.2.active).length
  | 0x40 => h.selAt 0x80040 0
  | 0x44 => at_ 0 t.admitOk + at_ 1 t.limit + at_ 2 t.reject + 2 ^ 3 * (t.promptWt % 256) + 2 ^ 11 * (t.maxReq % 2 ^ 18)
  | 0x48 => t.rate % 2 ^ 24
  | 0x4C => t.depth % 2 ^ 32
  | 0x50 => inField 32 (t.level.tdiv 256)
  | 0x54 => t.used.toNat
  | _ => 0
/-- Scheduling registers of a partition (R303). -/
def State.schedWord (s : State) (p o : Nat) : Nat :=
  let x := s.part p
  match o with
  | 0x00 => x.sched.toNat
  | 0x04 => s.countIn p .spin % 2 ^ 16 + 2 ^ 16 * (s.countIn p .ingest % 2 ^ 16)
  | 0x08 => s.countIn p .queued
  | 0x0C => s.countIn p .paused
  | 0x10 => s.countIn p .spooled
  | 0x14 => s.countIn p .held % 2 ^ 16 + at_ 27 x.ingest + 2 ^ 28 * (x.held % 8) + at_ 31 (decide (x.held ≠ 0))
  | 0x18 => x.step % 2 ^ 32
  | 0x1C => x.batch % 2 ^ 16 + 2 ^ 16 * (x.batchReqs % 2 ^ 16)
  | 0x20 => x.tokens.toNat
  | 0x24 => x.specProp % 2 ^ 16 + 2 ^ 16 * (x.specAcc % 2 ^ 16)
  | 0x28 => x.narrowed % 2 ^ 16 + 2 ^ 16 * (x.stops % 2 ^ 16)
  | 0x2C => x.spool.toNat
  | 0x30 => x.waits.toNat
  | _ => 0
/-- Format registers of a partition (R74). -/
def Part.fmtWord (x : Part) (o : Nat) : Nat :=
  match o with
  | 0x00 => at_ 0 x.fSat + at_ 1 x.fBxo + at_ 2 x.fFall + 2 ^ 14 * (x.fMark % 64) + 2 ^ 20 * (x.fLayer % 256) + 2 ^ 28 * (x.fGroup % 8)
  | 0x04 => x.replays.toNat
  | 0x08 => x.fallbacks.toNat
  | 0x0C => at_ 0 x.decayEn
  | _ => 0
/-- Configuration registers of a partition (R223). -/
def Part.bsWord (x : Part) (o : Nat) : Nat :=
  if 0x40 ≤ o then wordAt x.confNow ((o - 0x40) / 4)
  else match o with
    | 0x00 => (if x.state = .ready ∧ x.applying ≠ 0 then 5 else x.state.code) + at_ 3 x.debug + at_ 4 x.signed + at_ 5 (decide (x.alt ≠ 0)) + 2 ^ 8 * (x.last % 256) + 2 ^ 16 * (x.row0 % 8)
        + 2 ^ 19 * (x.col0 % 8) + 2 ^ 22 * ((x.rows - 1) % 8) + 2 ^ 25 * ((x.cols - 1) % 8)
    | 0x04 => x.errType % 2 ^ 16 + 2 ^ 16 * (x.errCheck % 256)
    | 0x08 => x.lateCnt.toNat
    | 0x0C => x.wdogCnt.toNat
    | _ => 0
/-- KV registers of a partition (R253). -/
def State.kvWord (s : State) (p o : Nat) : Nat :=
  let x := s.part p
  let ng := if x.pages = 0 then 0 else (s.groups p).length
  match o with
  | 0x00 => (List.range ng).foldl (fun n g => n + (s.freeFrames p g).length) 0
  | 0x04 => (s.framesUsed p).eraseDups.length
  | 0x08 => ng % 2 ^ 11 + 2 ^ 16 * (x.pages % 2 ^ 13)
  | 0x0C => x.kvEvict.toNat
  | 0x10 => x.kvLost.toNat
  | 0x14 => (s.partReqs p fun r => r.used && r.reshard).length
  | 0x18 => x.kvClamp.toNat
  | 0x1C => x.kvZero.toNat
  | 0x20 => x.kvLoad % 2 ^ 16 + 2 ^ 16 * (x.kvRounds % 2 ^ 16)
  | 0x24 => x.kvDefer.toNat
  | 0x28 => x.kvResend.toNat
  | _ => 0
/-- Weight registers of a partition (R274). -/
def Part.wtWord (x : Part) (o : Nat) : Nat :=
  if 0x40 ≤ o then wordAt x.wtDigest ((o - 0x40) / 4)
  else match o with
    | 0x00 => x.doff.state % 16 + at_ 4 x.oldLive + at_ 5 x.mixed + at_ 6 x.restore + 2 ^ 8 * (x.epoch % 256)
    | 0x04 => x.doff.done % 2 ^ 16 + 2 ^ 16 * (x.doff.units.length % 2 ^ 16)
    | 0x08 => (x.adapt.filter fun a => decide (a.2.state = 2)).length % 2 ^ 11 + 2 ^ 16 * (x.adaptSlots % 2 ^ 11)
    | 0x0C => x.doffCnt.toNat
    | _ => 0
/-- Repair registers of a partition (R435). -/
def Part.repWord (x : Part) (o : Nat) : Nat :=
  match o with
  | 0x00 => at_ 0 x.repVault + 2 ^ 7 * (x.repOrigin % 16) + 2 ^ 11 * (x.repCore % 128) + 2 ^ 18 * (x.repCluster % 16)
      + 2 ^ 22 * (x.repRegion % 64) + 2 ^ 28 * (x.downCause % 16)
  | 0x04 => x.repairs % 2 ^ 16 + 2 ^ 16 * (x.repReruns % 2 ^ 16)
  | 0x08 => x.repLast % 2 ^ 32
  | 0x0C => x.repMax % 2 ^ 32
  | _ => 0
/-- SRV block. -/
def State.srvWord (s : State) (h : Session) (o : Nat) : Nat :=
  if o < 0x1000 then s.srvTop h o
  else if o < 0x1400 then s.schedWord ((o - 0x1000) / 0x40) (o % 0x40)
  else if 0x4000 ≤ o ∧ o < 0x4200 then (s.part ((o - 0x4000) / 0x20)).fmtWord (o % 0x20)
  else if 0x5000 ≤ o ∧ o < 0x5800 then (s.part ((o - 0x5000) / 0x80)).bsWord (o % 0x80)
  else if 0x6000 ≤ o ∧ o < 0x6400 then s.kvWord ((o - 0x6000) / 0x40) (o % 0x40)
  else if 0x7000 ≤ o ∧ o < 0x7800 then (s.part ((o - 0x7000) / 0x80)).wtWord (o % 0x80)
  else if 0x8000 ≤ o ∧ o < 0x8200 then (s.part ((o - 0x8000) / 0x20)).repWord (o % 0x20)
  else 0

/-! ### Region blocks (R46, R137, R162, R163, R184, R223, R373, R393, R407, R463) -/

/-- A repair copy is running in a cluster (R137 COPY_BUSY). -/
def State.copyBusy (s : State) (u : Nat) : Bool :=
  partNums.any fun p => match (s.part p).repair with
    | some r => decide (r.stage = 1) && r.dead.any fun d => decide (d.1 / 72 = u)
    | none => false
/-- Registers of a cluster sub-block, from the cluster's contents. -/
def State.clWord (s : State) (u : Nat) (g : Region) (k : Cluster) (o : Nat) : Nat :=
  match o with
  | 0x100 => k.engStat.toNat
  | 0x104 => k.satCnt.toNat
  | 0x108 => k.bxoCnt.toNat
  | 0x10C => k.unfCnt.toNat
  | 0x110 => k.gate.toNat
  | 0x114 => k.busy.toNat
  | 0x200 => k.vltStat.toNat + at_ 6 (s.copyBusy u) + 2 ^ 29 * (g.thm.refresh % 4)
  | 0x204 => k.vltCe.toNat
  | 0x208 => k.vltUe.toNat
  | 0x20C => k.vltLast.toNat
  | 0x210 => k.scrub.toNat
  | 0x214 => k.minSpare % 16
  | 0x300 => k.padStat.toNat
  | 0x304 => k.padCe.toNat
  | 0x308 => k.padUe.toNat
  | 0x30C => k.banks.toNat
  | 0x400 => k.remap.toNat
  | 0x404 => k.latStat.toNat
  | 0x408 => k.missCnt.toNat
  | 0x40C => k.chkCnt.toNat
  | 0x410 => k.latSat.toNat
  | 0x414 => k.latFlits.toNat
  | 0x500 => k.treStat.toNat
  | 0x504 => k.treFlits.toNat
  | 0x508 => k.treChk.toNat
  | 0x600 => k.vacant.toNat
  | _ => 0
/-- RGN_TRE_CFG of region r: switches hosted, out of service, and copper links closed. -/
def State.treCfg (s : State) (r copper : Nat) : Nat :=
  let i := hostRegions.idxOf r
  let q := quadrant r
  let dark := fun h => decide (tget s.tree.hosts 0 h = 2)
  at_ 0 (dark (2 * q)) + at_ 1 (dark (2 * q + 1)) + at_ 2 (dark 8) + at_ 3 (dark 9)
    + 16 * (if i ≥ 10 then 0 else if i ≥ 8 then 3 else 1 + i % 2) + at_ 6 (decide (i < 10) && dark i) + 2 ^ 7 * copper
/-- Region-wide registers, from the region's contents. -/
def State.rgnWord (s : State) (h : Session) (r : Nat) (g : Region) (o : Nat) : Nat :=
  let n := g.net
  let c := g.clk
  let w := g.pwr
  let t := g.thm
  let occ := fun i => tget n.maxOcc 0 i % 256
  match o with
  | 0x800 => (if g.part.isSome then n.slack % 128 else 0) + 2 ^ 8 * n.closed.toNat + 2 ^ 16 * (n.plan % 8)
  | 0x804 => n.hold.toNat
  | 0x808 => (tget n.stalls 0 0).toNat
  | 0x80C => (tget n.stalls 0 1).toNat
  | 0x810 => (tget n.stalls 0 2).toNat
  | 0x814 => (tget n.stalls 0 3).toNat
  | 0x818 => occ 0 + 2 ^ 8 * occ 1 + 2 ^ 16 * occ 2 + 2 ^ 24 * occ 3
  | 0x900 => s.treCfg r n.copper.toNat
  | 0x904 => n.upA.toNat
  | 0x908 => n.upB.toNat
  | 0x90C => n.vc0Max % 16
  | 0x910 => n.hostFlits.toNat
  | 0xA00 => n.gateCnt.toNat
  | 0xA04 => n.lateCnt.toNat
  | 0xB00 => c.k % 32 + 2 ^ 5 * (c.kCap % 32) + 2 ^ 10 * (c.kFloor % 32) + at_ 15 (decide (c.k ≠ 0))
  | 0xB04 => c.stretch.toNat
  | 0xB08 => c.down % 2 ^ 16 + 2 ^ 16 * (c.up % 2 ^ 16)
  | 0xB0C => 2 ^ 27 * (c.minK % 32)
  | 0xC00 => w.state % 8 + at_ 11 w.marginal + 2 ^ 12 * (w.setpt % 2 ^ 10)
  | 0xC04 => w.vmin % 2 ^ 10 + 2 ^ 16 * (w.vminCl % 16)
  | 0xC08 => wordAt w.vminAt 0
  | 0xC0C => h.hi (0x100C0C + 0x10000 * r) w.vminAt
  | 0xC10 => w.lull.toNat
  | 0xC14 => w.tries % 2 ^ 16 + 2 ^ 24 * (w.cause % 256)
  | 0xD00 => inField 14 t.logic + 2 ^ 14 * inField 14 t.dram + at_ 28 t.lDis + at_ 29 t.dDis + at_ 30 t.lBroken + at_ 31 t.dBroken
  | 0xD04 => min 255 (t.cyc.getD 0 0) + 2 ^ 8 * min 255 (t.cyc.getD 1 0) + 2 ^ 16 * min 255 (t.cyc.getD 2 0) + 2 ^ 24 * min 255 (t.cyc.getD 3 0)
  | 0xD08 => t.life / 65536
  | 0xE00 => g.agt.hbMiss % 256 + at_ 15 g.agt.pending + at_ 16 g.agt.standby + at_ 17 g.part.isSome + 2 ^ 18 * (g.part.getD 0 % 16)
  | 0xE04 => g.agt.ver
  | 0xE08 => g.agt.vver
  | _ => 0
/-- The region block answers from the snapshot (R461): OFF, RETAIN, unusable, or Doldrums mode. -/
def State.snapped (s : State) (r : Nat) : Bool :=
  let g := s.region r
  decide (g.pwr.state ≤ 1) || g.agt.unusable || s.doldrums
/-- Contents a region block answers from: the live ones, the snapshot, or the reset contents where the region has never
left IDLE or RUN. -/
def State.viewOf (s : State) (r : Nat) : Region × (Nat → Cluster) :=
  let live := (s.region r, fun i => s.cluster (16 * r + i))
  if !s.snapped r then live
  else match tget s.snaps none r with
    | some x => (x.region, fun i => x.clusters.getD i Cluster.reset)
    | none => if pwrUp (s.region r).pwr.state then live else (Region.reset, fun _ => Cluster.reset)
/-- Region block r, offset o. -/
def State.regionWord (s : State) (h : Session) (r o : Nat) : Nat :=
  let (g, cl) := s.viewOf r
  let i := o / 0x1000
  let q := o % 0x1000
  if q < 0x800 then s.clWord (16 * r + i) g (cl i) q
  else if i = 0 then s.rgnWord h r g q
  else 0

/-- The word a register address holds, as a session sees it (R460); 0 where nothing is mapped. -/
def State.regWord (s : State) (h : Session) (a : Nat) : Word :=
  BitVec.ofNat 32 (
    if a < 0x10000 then s.devWord a
    else if a < 0x20000 then s.secWord h (a - 0x10000)
    else if a < 0x30000 then s.clkWord h (a - 0x20000)
    else if a < 0x40000 then s.pwrWord h (a - 0x30000)
    else if a < 0x50000 then s.thmWord (a - 0x40000)
    else if a < 0x60000 then s.ethWord h (a - 0x50000)
    else if a < 0x70000 then s.splWord h (a - 0x60000)
    else if a < 0x80000 then s.evtWord h (a - 0x70000)
    else if a < 0x90000 then s.srvWord h (a - 0x80000)
    else if 0x100000 ≤ a ∧ a < 0x500000 then s.regionWord h ((a - 0x100000) / 0x10000) (a % 0x10000)
    else 0)

/-! ### Telemetry (R464) -/

/-- Words of a telemetry record of a kind. Telemetry reads no RC field: SPL_C and ETH words named hold none. -/
def State.telWords (s : State) (h : Session) (kind : Nat) : List Word :=
  let w := fun (l : List Nat) => l.map fun a => s.regWord h a
  let n := fun (l : List Nat) => l.map fun x => BitVec.ofNat 32 x
  let rgn := fun (o : Nat) => (List.range 64).map fun r => 0x100000 + 0x10000 * r + o
  let par := fun (f : Nat → List Nat) => (List.range 16).flatMap f
  match kind with
  | 0 => w [0x30004, 0x30008, 0x30000] ++ n [s.pwr.pin]
  | 1 => w (par fun p => [0x31000 + 16 * p])
  | 2 => n ((List.range 1024).map fun g => (s.grp g).cur % 2 ^ 16)
  | 3 => n ((List.range 64).map fun r => tget s.pwr.vvault 0 r % 2 ^ 16 + 2 ^ 16 * ((s.region r).pwr.watts % 2 ^ 16))
  | 4 => n ((List.range 16).map fun z => tget s.pwr.zoneVin 0 z % 2 ^ 16)
  | 5 => w (rgn 0xD00) ++ n ((List.range 8).map fun i => inField 32 (s.thm.therm.getD i 0))
  | 6 => w [0x40010, 0x40014, 0x40018, 0x40004]
  | 7 => w [0x20024, 0x20028, 0x2002C, 0x20030, 0x20034, 0x20038, 0x2003C, 0x20040, 0x20000]
  | 8 => w (rgn 0xB00)
  | 9 => w (par fun p => [0x81004 + 0x40 * p, 0x8101C + 0x40 * p, 0x81018 + 0x40 * p, 0x81014 + 0x40 * p])
  | 10 => w ([0, 1].flatMap fun c => [0x60100 + 0x100 * c, 0x60108 + 0x100 * c, 0x6010C + 0x100 * c, 0x60110 + 0x100 * c, 0x60114 + 0x100 * c, 0x60104 + 0x100 * c])
  | 11 => w [0x50004, 0x50008, 0x5000C, 0x50060]
  | _ => []
/-- A TEL_RECORD of a kind to a session (R323). -/
def State.telRecord (s : State) (ses : Nat) (h : Session) (kind : Nat) : State :=
  let ws := s.telWords h kind
  s.push ses 5 2 0xFF (beBytes 8 s.clk.wtime ++ beBytes 2 kind ++ beBytes 2 ws.length ++ beBytes 4 0 ++ ws.flatMap fun w => beBytes 4 w.toNat)
/-- A change that is pushed whatever the PERIOD (R464): to every session subscribed to the kind. -/
def State.pushTel (s : State) (kind : Nat) : State :=
  s.eth.sessions.foldl (fun s (i, x) => match x with
    | some h => if h.telMs ≠ 0 ∧ h.telKinds.testBit kind then s.telRecord i h kind else s
    | none => s) s

end Sys2Proof.Machine
end

