-- ==== Sys2Proof/Machine/Clocks.lean ====
section
/-!
DEFINITION. Region clocks, clock faults, WTIME and its alignment to host time (R355 to R371).
-/
namespace Sys2Proof.Machine

/-- Class 0x27 (R372, R424): subkind, domain, and a frequency or offset. -/
def State.clockEv (s : State) (sub dom : Nat) (x : Int) : State :=
  let sp := sp [(0, 1, sub), (1, 1, dom), (4, 4, inField 32 x)]
  s.raise (if dom < 64 ∧ (sub = 0 ∨ sub = 3) then s.regionEv dom 0x27 sp else s.edgeEv 0x27 sp)
/-- Update a region's clock unit. -/
def State.updClk (s : State) (r : Nat) (f : RClk → RClk) : State := s.updRegion r fun g => { g with clk := f g.clk }

/-! ### Stretching and ratio steps (R357 to R360, R378) -/

/-- DROOP_TRIP: the next period but one of region r is stretched; `next`: it follows the last stretched period at once.
After 8 in a row above K_floor the ninth is not stretched: the ratio steps down instead (R358). -/
def execDroopTrip (r : Nat) (next : Bool) (s : State) : Out :=
  if r < 64 then
    let c := (s.region r).clk
    if c.k = 0 ∨ (next ∧ c.consec ≥ 8 ∧ c.k > c.kFloor) then .next s
    else .next (s.updClk r fun c =>
      { c with stretch := satInc c.stretch, stretchNow := c.stretchNow + 1, consec := if next then min 8 (c.consec + 1) else 1
               quiet := s.clk.wtime })
  else .fault .noSuchUnit
/-- RATIO_STEP_DOWN: after 8 consecutive stretched periods above K_floor (R358). -/
def execRatioStepDown (r : Nat) (s : State) : Out :=
  if r < 64 then
    let c := (s.region r).clk
    if c.consec < 8 ∨ c.k ≤ c.kFloor then .next s
    else .next ((s.setRatio r (c.k - 1) 0).updClk r fun c => { c with consec := 0 })
  else .fault .noSuchUnit
/-- FLOOR_STRETCH_REPORT: a region stretching at K_floor raises class 0x27 subkind 3, at most once a millisecond, and its set point
rises by 10 mV up to 0.85 V; at 0.85 V for 10 s it is MARGINAL and unusable (R358, R378). Reports more than 2 ms apart
are separate spells. -/
def execFloorStretchReport (r : Nat) (s : State) : Out :=
  if r < 64 then
    let g := s.region r
    let now := s.clk.wtime
    if g.clk.k = 0 ∨ g.clk.k > g.clk.kFloor ∨ g.clk.consec < 8 ∨ (g.clk.floorHit ≠ 0 ∧ now + 1 < g.clk.floorHit + msecs 1) then .next s
    else
      let s := s.clockEv 3 r 0
      let top := decide (g.pwr.setpt ≥ 850)
      let fresh := decide (now + 1 > g.clk.floorHit + msecs 2)
      let since := if !top then none else if fresh then some now else g.pwr.highSince.or (some now)
      let bad := match since with
        | some t => decide (now ≥ t + secs 10)
        | none => false
      let s := s.updRegion r fun g =>
        { g with clk := { g.clk with floorHit := now + 1 }
                 pwr := { g.pwr with setpt := min 850 (g.pwr.setpt + 10), highSince := since, marginal := g.pwr.marginal || bad } }
      .next (if bad then s.regionUnusable r 11 else s)
  else .fault .noSuchUnit
/-- RATIO_STEP_UP: a region below K_cap with 65,536 rclk cycles since its last stretch or ratio change; a bclk tick holds
K ÷ 2 of them (R355, R359). -/
def execRatioStepUp (r : Nat) (s : State) : Out :=
  if r < 64 then
    let c := (s.region r).clk
    if c.k = 0 ∨ c.ramp ∨ c.k ≥ c.kCap ∨ (s.clk.wtime - c.quiet) * c.k < 131072 then .next s
    else .next (s.setRatio r (c.k + 1) 1)
  else .fault .noSuchUnit
/-- CLOCK_START_RAMP: every 10 µs of a start without a stretch the ratio rises by 1, up to K_cap (R360). -/
def execClockStartRamp (r : Nat) (s : State) : Out :=
  if r < 64 then
    let c := (s.region r).clk
    if !c.ramp ∨ s.clk.wtime < c.quiet + usecs 10 then .next s
    else
      let s := if c.k < c.kCap then s.setRatio r (c.k + 1) 3 else s
      .next (s.updClk r fun c => { c with ramp := decide (c.k < c.kCap) })
  else .fault .noSuchUnit

/-! ### Monitors and clock faults (R362, R363) -/

/-- Nominal frequency of domains 64 to 71, kHz (R353, R354). -/
def nominalKHz (d : Nat) : Nat := [700000, 700000, 350000, 175000, 156250, 156250, 100000, 125000].getD (d - 64) 0
/-- A monitor threshold of the record in use, in ppm of nominal; 0 in the record stands for the factory value (R362,
R455). -/
def State.monitorPpm (s : State) (d : Nat) (high : Bool) : Nat :=
  let x := calAt s.boot.calUse (0x3340 + 8 * d + if high then 0 else 4) 4
  if x ≠ 0 then x
  else if high then 1005000
  else if d < 64 then 653333 else 995000
/-- The window's mean frequency lies outside the domain's thresholds (R362). -/
def State.offFrequency (s : State) (d kHz : Nat) : Bool :=
  let c := (s.region d).clk
  let hi := if d < 64 then 87500 * c.kCap else nominalKHz d
  let lo := if d < 64 then 87500 * c.kFloor else nominalKHz d
  decide (kHz * 1000000 > hi * s.monitorPpm d true) || decide (kHz * 1000000 < lo * s.monitorPpm d false)
/-- A new state of the alignment: class 0x27 subkind 4 (R369). -/
def State.alignState (s : State) (x : Nat) : State :=
  if s.clk.alnState = x then s
  else { s with clk := { s.clk with alnState := x, alnGood := 0, alnFirst := none } }.clockEv 4 67 s.clk.alnOfs
/-- Loss of the root clocks (R363): the device aborts, vaults enter self-refresh, mclk falls back and every rclk stops. Within
60 s of RUNNING it is a failed start (R439 cause 11); during a start, a reference or bclk outside its limits is (cause 2). -/
def State.rootFault (s : State) (refLost bclk : Bool) : State :=
  let soon := decide (s.boot.start = 2) && decide (s.clk.wtime < s.boot.runAt + secs 60)
  let starting := decide (s.boot.start = 1) && (refLost || bclk)
  let s := (List.range 64).foldl State.stopClock s.abortAll
  let s := { s with clk := { s.clk with rootLock := false, refOk := !refLost, selfRefresh := true, mclkFallback := true
                                        lockTries := 0, lockAt := s.clk.wtime } }
  let s := if s.clk.alnState = 2 then s.alignState 3 else s
  if soon then s.startFails 11 else if starting then s.startFails 2 else s
/-- CLOCK_MONITOR_WINDOW: a 10 µs count of domain d is judged (R362), and a fault acts as R363 gives. -/
def execClockMonitorWindow (d kHz : Nat) (noEdge : Bool) (s : State) : Out :=
  if d < 72 then
    if (d < 64 ∧ (s.region d).clk.k = 0) ∨ (!noEdge ∧ !s.offFrequency d kHz) then .next s
    else
      let now := s.clk.wtime
      let s := { s with clk := { s.clk with domFault := s.clk.domFault ||| BitVec.ofNat 72 (2 ^ d) } }.clockEv 0 d kHz
      if d < 64 then
        let last := tget s.clk.lastFault 0 d
        let s := { s with clk := { s.clk with lastFault := tset s.clk.lastFault 0 d (now + 1) } }
        let s := match (s.region d).part with
          | none => s
          | some p => if (s.part p).phase = RunPhase.running then (s.stopRun p).updPart p fun x => { x with phase := .frozen, freezeAt := none } else s
        let s := (s.stopClock d).updClk d fun c => { c with restartAt := now + 1 }
        .next (if last ≠ 0 ∧ now + 1 < last + secs 1 then s.regionUnusable d 10 else s)
      else if d < 68 then .next (s.rootFault false (decide (d = 67)))
      else if d < 70 then
        let s := s.linksDown (portIfs (d - 68))
        .next { s with clk := { s.clk with ethRetry := setBit2 s.clk.ethRetry (d - 68) true } }
      else if d = 70 then .next ([0, 1].foldl State.cardLost s)
      else .next (s.linksDown [16])
  else .fault .noSuchUnit
/-- REGION_CLOCK_RESTART: the clock unit of a faulted region runs again from K = 8, and with the last of a partition's the
step in flight starts again from its first layer (R363); a repair that waited goes on (R371). -/
def execRegionClockRestart (r : Nat) (s : State) : Out :=
  if r < 64 then
    if (s.region r).clk.restartAt = 0 then .next s
    else
      let s := s.updClk r fun c => { c with restartAt := 0 }
      let s := if (s.region r).pwr.state = 3 then s.startClock r else s
      match (s.region r).part with
      | none => .next s
      | some p =>
        let x := s.part p
        if x.phase = .frozen ∧ x.repair.isNone ∧ x.held = 0 ∧ (s.partRegions p).all (fun q => decide ((s.region q).clk.restartAt = 0)) then
          .next (s.rerun p)
        else .next s
  else .fault .noSuchUnit
/-- ROOT_PLL_UNLOCK: the root PLL unlocks, or its reference is lost (class 0x27 subkind 1 or 2). -/
def execRootPllUnlock (refLost : Bool) (s : State) : Out :=
  if !s.clk.rootLock then .next s else .next ((s.clockEv (if refLost then 2 else 1) 0 0).rootFault refLost false)
/-- PLL_LOCK_RETRY: 10 ms after the loss or the last try. A lock restarts the wafer, its vaults kept through self-refresh;
the third failure is a failed start of cause 1 (R363, R439). -/
def execPllLockRetry (ok : Bool) (s : State) : Out :=
  if s.clk.rootLock ∨ !s.clk.selfRefresh ∨ s.boot.start = 3 ∨ s.boot.start = 4 ∨ s.clk.wtime < s.clk.lockAt + msecs 10 then .next s
  else if ok then .next { s.waferOff .down with vaults := s.vaults }.orderStart
  else
    let n := s.clk.lockTries + 1
    let s := { s with clk := { s.clk with lockTries := n, lockAt := s.clk.wtime } }
    .next (if n ≥ 3 then s.startFails 1 else s)
/-- ETHERNET_REFERENCE_RETRY: every 100 ms, until the port's reference returns; its links then train by LINK_UP. -/
def execEthernetReferenceRetry (port : Nat) (ok : Bool) (s : State) : Out :=
  if port < 2 then
    if !s.clk.ethRetry.getLsbD port ∨ !ok then .next s
    else .next { s with clk := { s.clk with ethRetry := setBit2 s.clk.ethRetry port false } }
  else .fault .noSuchUnit

/-! ### WTIME and alignment (R364 to R370) -/

/-- Write a WTIME checkpoint to the boot flash. -/
def State.checkpoint (s : State) : State := { s with clk := { s.clk with checkpoint := s.clk.wtime } }
/-- WTIME_CHECKPOINT: every 2³⁹ ticks (R365). -/
def execWtimeCheckpoint (s : State) : Out :=
  if !s.edgeUp ∨ s.clk.wtime < s.clk.checkpoint + 2 ^ 39 then .next s else .next s.checkpoint

/-- Aligned time, in ns, of a WTIME value in units of 2⁻¹⁶ tick (R367). -/
def Clk.aligned (k : Clk) (w : Nat) : Int :=
  (k.alnT0s * 1000000000 + k.alnT0ns : Nat) + ((w : Int) - (k.alnW0 * 65536 : Nat)) * 40 * (2 ^ 40 + k.alnRate) / (7 * 65536 * 2 ^ 40)
/-- Replace the mapping (R368): W0, T0 and RATE together, SEQ odd and then the next even value, and a push to subscribers. -/
def State.setMapping (s : State) (w0 : Nat) (t0 rate : Int) : State :=
  let t := (t0 % ((2 ^ 48 * 1000000000 : Nat) : Int)).toNat
  { s with clk := { s.clk with alnSeq := s.clk.alnSeq + 2, alnW0 := w0, alnT0s := t / 1000000000, alnT0ns := t % 1000000000, alnRate := rate } }.pushTel 7
/-- A signed 32-bit value that the spec leaves open: a RATE the servo sets. -/
def State.drawRate (s : State) : State × Int :=
  let (s, v) := s.draw
  (s, (v % 2 ^ 32 : Nat) - (2 ^ 31 : Int))
/-- One valid exchange or edge, with its offset in ns (R369). FREE steps T0 by the whole offset and acquires; ACQUIRING steps
T0, takes a RATE once two exchanges lie 1 s apart, and locks after 16 below 100 ns; LOCKED steers RATE alone; HOLDOVER
keeps RATE until 16 good exchanges lock it again. Above 1 ms the servo acquires afresh. The RATE it sets is free. -/
def State.servo (s : State) (ofs : Int) : State :=
  let now := s.clk.wtime
  let ofs' := max (-2147483648) (min 2147483647 ofs)
  let good := decide (ofs.natAbs < 100)
  let far := decide (ofs.natAbs > 1000000)
  let s := { s with clk := { s.clk with alnOfs := ofs', alnLast := now, alnGood := if good then min 16 (s.clk.alnGood + 1) else 0 } }
  let step := fun (s : State) (rate : Int) => s.setMapping now (s.clk.aligned (now * 65536) - ofs) rate
  let first := fun (s : State) => { s with clk := { s.clk with alnFirst := some now } }
  if s.clk.alnState = 0 ∨ (far ∧ s.clk.alnState ≠ 1) then
    let s := first (step (s.alignState 1) s.clk.alnRate)
    { s with clk := { s.clk with alnGood := 0 } }
  else if s.clk.alnGood ≥ 16 ∧ s.clk.alnState ≠ 2 then s.alignState 2
  else if s.clk.alnState = 1 then
    match s.clk.alnFirst with
    | some t =>
      if now ≥ t + secs 1 then
        let (s, rate) := s.drawRate
        first (step s rate)
      else step s s.clk.alnRate
    | none => first (step s s.clk.alnRate)
  else if s.clk.alnState = 2 then
    let (s, rate) := s.drawRate
    s.setMapping now (s.clk.aligned (now * 65536)) rate
  else s
/-- PTP_EVENT_MESSAGE: an exchange completes on interface i, domain and transport: t1 and t4 the master's times in ns, t2 and t3
the device's timestamps in 2⁻¹⁶ tick (R330, R369). The calibrated interface delay is taken off both ends. -/
def execPtpEventMessage (i dom tr : Nat) (t1 t4 : Int) (t2 t3 : Nat) (s : State) : Out :=
  if i < 16 then
    let c := s.eth.ptp.toNat
    if s.clk.alnSrc ≠ 1 ∨ c / 32 % 2 = 0 ∨ c % 32 ≠ i ∨ c / 65536 % 256 ≠ dom ∨ c / 64 % 4 ≠ tr ∨ !s.eth.link.getLsbD i ∨ !s.clk.rootLock then .next s
    else
      let d := calAt s.boot.calUse (0x35C0 + 4 * (16 * (s.eth.mode (i / 8)) + i)) 4
      .next (s.servo (((s.clk.aligned (t2 - d) - t1) - (t4 - s.clk.aligned (t3 + d))) / 2))
  else .fault .noSuchUnit
/-- PTP_HOLDOVER: no valid exchange or edge for 3 s while LOCKED. -/
def execPtpHoldover (s : State) : Out :=
  if s.clk.alnState ≠ 2 ∨ s.clk.wtime < s.clk.alnLast + secs 3 then .next s else .next (s.alignState 3)
/-- PPS_EDGE: an edge at a WTIME in 2⁻¹⁶ tick; it marks the second of CLK_PPS_TOD, its upper bits those of T0. Outside FREE
an edge more than 1 ms off is discarded with class 0x27 subkind 5 (R370). -/
def execPpsEdge (t : Nat) (s : State) : Out :=
  if s.clk.alnSrc ≠ 2 then .next s
  else
    let sec := s.clk.alnT0s / 2 ^ 32 * 2 ^ 32 + s.clk.ppsTod % 2 ^ 32
    let ofs := s.clk.aligned t - (sec * 1000000000 : Nat)
    if s.clk.alnState ≠ 0 ∧ ofs.natAbs > 1000000 then .next (s.clockEv 5 67 (max (-2147483648) (min 2147483647 ofs)))
    else .next (s.servo ofs)
/-- PPS_EDGE_MISSING: an expected edge does not arrive (R370). -/
def execPpsEdgeMissing (s : State) : Out :=
  if s.clk.alnSrc ≠ 2 ∨ s.clk.alnState = 0 ∨ s.clk.wtime < s.clk.alnLast + secs 1 then .next s else .next (s.clockEv 5 67 s.clk.alnOfs)
/-- Write CLK_ALN_CFG (R373): another source restarts the alignment in FREE (R369). -/
def State.writeAlnCfg (_ : Session) (v : Word) (s : State) : State × Nat :=
  let src := v.toNat % 4
  if src = 3 then (s, stNoRoom)
  else if src = s.clk.alnSrc then (s, stOk)
  else ((({ s with clk := { s.clk with alnSrc := src } }.alignState 0).setMapping s.clk.wtime 0 0), stOk)

/-- One bclk tick with no command waiting: WTIME, 64 bits, rises by 1 (R364). -/
def State.tick (s : State) : State := { s with clk := { s.clk with wtime := (s.clk.wtime + 1) % 2 ^ 64 } }

end Sys2Proof.Machine
end

