-- ==== Sys2Proof/Machine/CoreScalar.lean ====
section
/-!
DEFINITION. Control and scalar instructions (R86 to R90, R101).
-/
namespace Sys2Proof.Machine

/-- NOP holds the issue stage for CNT[11:0] + 1 cycles; a word with opcode 0x3E or 0x3F is met here (R81, R90). -/
def execNop (c : Nat) (w : DWord) (s : State) : Out :=
  issueCore 0x00 c w s [] [] (fld w 11 0 + 1) 0 false id

/-- END begins the wait for every operation the core issued (R90). -/
def execEndRun (c : Nat) (w : DWord) (s : State) : Out :=
  issueCore 0x01 c w s [] [] 1 0 false fun k => { k with wait := .endRun }

/-- Every operation core c issued has completed (R90). -/
def State.allDone (s : State) (c : Nat) : Bool :=
  let k := s.core c
  k.engDrained && k.vq.isEmpty && s.descDone c && k.lputs.isEmpty && k.sends.isEmpty

/-- END completes: the run is done and the core idles (R90). -/
def execEndComplete (c : Nat) (s : State) : Out :=
  if c < 73728 then
    let k := s.core c
    if k.run = .running ∧ k.wait = .endRun ∧ s.allDone c = true then
      .next (s.setCore c { k with run := .ended, wait := .none })
    else .next s
  else .fault .noSuchUnit

/-- HALT stops the core; the region agent reports the stop and PC (R90). -/
def execHalt (c : Nat) (w : DWord) (s : State) : Out :=
  issue 0x02 c w s [] [] 1 0 0 false
    (fun _ s => ((s.updCore c fun k => { k with run := .halted }).agentNote (regionOf c) (s.core c).pc.toNat, true))
    (fun _ s => s) id

/-- JMP in 2 cycles (R89). -/
def execJmp (c : Nat) (w : DWord) (s : State) : Out :=
  issue 0x03 c w s [] [] 2 0 0 false (fun _ s => (s, true)) (fun _ s => s) (fun k => k.jump (fld w 53 42))

/-- LOOP: CNT + 1 trips (R86, R87). -/
def execLoop (c : Nat) (w : DWord) (s : State) : Out :=
  issue 0x04 c w s [] [] 1 0 0 false (fun _ s => (s, true)) (fun _ s => s)
    (fun k => k.enterLoop (fld w 53 42) (fld w 15 0 + 1))

/-- LOOPS: trips from SR, at most 65,536; 0 skips the body. A clamped count is a debug hazard (R87, R104). -/
def execLoops (c : Nat) (w : DWord) (s : State) : Out :=
  let n := ((s.core c).sreg (fld w 41 37)).toNat
  issue 0x05 c w s [fld w 41 37] [] 1 0 0 false
    (fun _ s => (if n > 65536 then s.hazard c 6 0 0 0 0 else s, true)) (fun _ s => s)
    (fun k => k.enterLoop (fld w 53 42) (min n 65536))

/-- The shape of RD := f RA op2 (R90). -/
def execAlu (op c : Nat) (w : DWord) (s : State) (lat : Nat) (f : Word → Word → Word) : Out :=
  issueCore op c w s (fld w 47 42 :: op2Slots w) [fld w 53 48] 1 lat false
    fun k => k.setSpec (fld w 53 48) (f (k.spec (fld w 47 42)) (k.op2 w))

/-- ADD. -/
def execAdd (c : Nat) (w : DWord) (s : State) : Out := execAlu 0x06 c w s 1 (· + ·)
/-- SUB. -/
def execSub (c : Nat) (w : DWord) (s : State) : Out := execAlu 0x07 c w s 1 (· - ·)
/-- MUL: low 32 bits. -/
def execMul (c : Nat) (w : DWord) (s : State) : Out := execAlu 0x08 c w s 3 (· * ·)
/-- AND. -/
def execAnd (c : Nat) (w : DWord) (s : State) : Out := execAlu 0x09 c w s 1 (· &&& ·)
/-- OR. -/
def execOr (c : Nat) (w : DWord) (s : State) : Out := execAlu 0x0A c w s 1 (· ||| ·)
/-- XOR. -/
def execXor (c : Nat) (w : DWord) (s : State) : Out := execAlu 0x0B c w s 1 (· ^^^ ·)

/-- Shift by op2[4:0]: SUB 0 left, 1 logical right, 2 arithmetic right (R90). -/
def shift (sub : Nat) (x y : Word) : Word :=
  let n := y.toNat % 32
  if sub = 0 then x <<< n else if sub = 1 then x >>> n else x.sshiftRight n
/-- SHF. -/
def execShf (c : Nat) (w : DWord) (s : State) : Out := execAlu 0x0C c w s 1 (shift (fld w 34 32))

/-- LDI. -/
def execLdi (c : Nat) (w : DWord) (s : State) : Out :=
  issueCore 0x0D c w s [] [fld w 53 48] 1 1 false fun k => k.setSpec (fld w 53 48) (BitVec.ofNat 32 (fld w 31 0))

/-- PCMP's six comparisons (R90). -/
def pcmp (sub : Nat) (x y : Word) : Bool :=
  if sub = 0 then decide (x = y) else if sub = 1 then decide (x ≠ y) else if sub = 2 then decide (x.toInt < y.toInt)
  else if sub = 3 then decide (x.toNat < y.toNat) else if sub = 4 then decide (x.toInt ≥ y.toInt)
  else decide (x.toNat ≥ y.toNat)

/-- PCMP: every bit of pd takes the result (R90). -/
def execPcmp (c : Nat) (w : DWord) (s : State) : Out :=
  issueCore 0x0E c w s (fld w 47 42 :: op2Slots w) [96 + fld w 50 48] 1 1 false
    fun k => k.setP (fld w 50 48) (if pcmp (fld w 34 32) (k.spec (fld w 47 42)) (k.op2 w) then 0xFFFF else 0)

/-- PLOG's five sub-operations (R90). -/
def plog (sub : Nat) (a b : BitVec 16) (imm : Nat) : BitVec 16 :=
  if sub = 0 then a &&& b else if sub = 1 then a ||| b else if sub = 2 then a &&& ~~~b else if sub = 3 then ~~~a
  else BitVec.ofNat 16 imm

/-- PLOG. -/
def execPlog (c : Nat) (w : DWord) (s : State) : Out :=
  issueCore 0x0F c w s [96 + fld w 44 42, 96 + fld w 38 36] [96 + fld w 50 48] 1 1 false
    fun k => k.setP (fld w 50 48) (plog (fld w 34 32) (k.preg (fld w 44 42)) (k.preg (fld w 38 36)) (fld w 15 0))

/-- Iteration index at nesting depth d, 0 the outermost (R88). -/
def Core.lc (k : Core) (d : Nat) : Nat := match k.loops.reverse[d]? with
  | some e => e.iter
  | none => 0

/-- Special register reads (R101). -/
def State.special (s : State) (c i : Nat) : Word :=
  let k := s.core c
  let r := regionOf c
  let p := (s.region r).part.getD 0
  let pt := s.part p
  let (lx, ly) := (s.logXY c).getD (0, 0)
  if i = 0x000 then BitVec.ofNat 32 (lx + 256 * ly)
  else if i = 0x001 then
    BitVec.ofNat 32 (c % 9 + 16 * (c % 72 / 9) + 128 * r + 8192 * (c / 72 % 16) + 131072 * p)
  else if i = 0x002 then (k.flagsAt k.cycle).estat
  else if i = 0x003 then k.unf
  else if i = 0x004 then BitVec.ofNat 32 (k.cycle - k.frameStart)
  else if i = 0x005 then BitVec.ofNat 32 (s.frameLen r)
  else if i = 0x006 then BitVec.ofNat 32 k.frameNo
  else if i = 0x007 then
    BitVec.ofNat 32 (pt.stepEpoch % 256 + 256 * pt.ingest.toNat + 512 * (pt.runNo % 4) + 2048 * pt.act8.toNat)
  else if i = 0x008 then BitVec.ofNat 32 pt.batch
  else if 0x009 ≤ i ∧ i ≤ 0x00C then BitVec.ofNat 32 (k.lc (i - 9))
  else if i = 0x00D then BitVec.ofNat 32 k.cycle
  else if 0x010 ≤ i ∧ i ≤ 0x03F then BitVec.ofNat 32 (k.circOf (i / 16 - 1) (i % 16)).fill
  else if i = 0x040 then
    BitVec.ofNat 32 (k.vq.length % 8 + 16 * (16 - s.descUsed c k.cycle) + 4096 * (k.sends.length % 16))
  else if i = 0x041 then k.lastFlag
  else 0

/-- MFSR. -/
def execMfsr (c : Nat) (w : DWord) (s : State) : Out :=
  issue 0x10 c w s [] [fld w 53 48] 1 2 0 false
    (fun start s =>
      let x := (s.updCore c fun k => { k with cycle := start }).special c (fld w 11 0)
      (s.updCore c fun k => k.setSpec (fld w 53 48) x, true))
    (fun _ s => s) Core.advance

/-- MTSR: UNFCNT clears on any write; DBGMARK writes a trace marker in a debug bit-stream; others are discarded (R101). -/
def execMtsr (c : Nat) (w : DWord) (s : State) : Out :=
  issue 0x11 c w s [fld w 47 42] [] 1 0 0 false
    (fun _ s =>
      (if fld w 11 0 = 0x003 then s.updCore c fun k => { k with unf := 0 }
       else if fld w 11 0 = 0x7F0 then s.dbgMark c ((s.core c).spec (fld w 47 42))
       else s, true))
    (fun _ s => s) Core.advance

end Sys2Proof.Machine
end

