-- ==== Sys2Proof/Machine/Formats.lean ====
section
/-!
DEFINITION. The number formats: the engine activation format (R54, R56), the Microscaling formats (R58, R59), the KV
formats with error diffusion (R61 to R64) and the dequantisation of P-pad words (R54).
-/
namespace Sys2Proof.Machine

/-- round(m × 2ᵉ), ties to even. -/
def dyRound (m : Nat) (e : Int) : Nat := if e ≥ 0 then m * 2 ^ e.toNat else natShrRne m (-e).toNat

/-- Signed byte as an integer. -/
def s8 (b : Byte) : Int := b.toInt
/-- Integer as a byte, two's complement. -/
def toByte (x : Int) : Byte := BitVec.ofInt 8 x

/-- A conversion input: finite magnitude, with NaN and infinity replaced by 0 (R60). -/
def convIn (x : Word) : Bool × Nat × Int × Bool :=
  match fDec x with
  | .fin n m e => (n, m, e, false)
  | _ => (false, 0, 0, true)

/-! ### Engine activation format -/

/-- Outcome of a conversion to the engine activation format. -/
structure ActRes where
  ints  : List Byte
  exp   : Nat
  clamp : Nat      -- values clamped
  nonfin : Nat     -- values replaced under R60
  ovf   : Bool     -- no E up to 254 fitted (R56)
  deriving DecidableEq, Repr

/-- The smallest E from `e` on, tried `fuel` times, at which every |v| × 2^(133 − E) rounds to at most 127. -/
def findE (vs : List (Nat × Int)) : Nat → Nat → Option Nat
  | 0, _ => none
  | n + 1, e =>
    if vs.all fun (m, x) => dyRound m (x + 133 - (e : Int)) ≤ 127 then some e else findE vs n (e + 1)

/-- R56 of FP32 values; `fix` is E_fix on the 8-bit activation path (R69). -/
def toEngine (xs : List Word) (fix : Option Nat) : ActRes :=
  let vs := xs.map convIn
  let nonfin := (vs.filter fun v => v.2.2.2).length
  let mags := vs.map fun v => (v.2.1, v.2.2.1)
  let zero := mags.all fun m => m.1 = 0
  let (e, ovf) : Nat × Bool :=
    match fix with
    | some f => (f, false)
    | none => if zero then (0, false) else
        match findE mags 255 0 with
        | some e => (e, false)
        | none => (254, true)
  let q := fun (v : Bool × Nat × Int × Bool) => dyRound v.2.1 (v.2.2.1 + 133 - (e : Int))
  { ints := vs.map fun v => let a : Int := (min (q v) 127 : Nat); toByte (if v.1 then -a else a)
    exp := e
    clamp := (vs.filter fun v => decide (q v > 127)).length
    nonfin := nonfin
    ovf := ovf }

/-! ### Microscaling formats (R58, R59) -/

/-- Element shape by FMT code: exponent bits, mantissa bits, bias, largest finite code, emax; MXINT8 apart (R94). -/
structure MxFmt where
  eb : Nat
  mb : Nat
  bias : Nat
  top : Nat
  emax : Nat
  deriving DecidableEq, Repr

/-- Shapes of FMT 2 to 6. -/
def mxFmt (f : Nat) : MxFmt :=
  if f = 2 then ⟨4, 3, 7, 0x7E, 8⟩ else if f = 3 then ⟨5, 2, 15, 0x7B, 15⟩
  else if f = 4 then ⟨3, 2, 3, 0x1F, 4⟩ else if f = 5 then ⟨2, 3, 1, 0x1F, 2⟩ else ⟨2, 1, 1, 0x7, 2⟩

/-- Element width in bits. -/
def mxWidth (f : Nat) : Nat := if f = 6 then 4 else if f = 4 ∨ f = 5 then 6 else 8
/-- Bytes of a 32-element block with its scale (R58). -/
def mxBytes (f : Nat) : Nat := 1 + 4 * mxWidth f

/-- Element code to magnitude m × 2ᵉ with sign, or none for a NaN or infinity code. -/
def mxDec (f code : Nat) : Option (Bool × Nat × Int) :=
  if f = 7 then
    let v : Int := s8 (BitVec.ofNat 8 code)
    some (decide (v < 0), v.natAbs, -6)
  else
    let x := mxFmt f
    let c := code % 2 ^ (x.eb + x.mb)
    let neg := code / 2 ^ (x.eb + x.mb) % 2 = 1
    let ef := c / 2 ^ x.mb
    let man := c % 2 ^ x.mb
    if c > x.top then none
    else if ef = 0 then some (neg, man, 1 - (x.bias : Int) - x.mb)
    else some (neg, 2 ^ x.mb + man, (ef : Int) - x.bias - x.mb)

/-- floor(log2(m × 2ᵉ)) for m > 0. -/
def dyLog (m : Nat) (e : Int) : Int := (Nat.log2 m : Int) + e

/-- Magnitude m × 2ᵉ to an element code, nearest even, saturating at the largest finite magnitude (R59). -/
def mxEnc (f : Nat) (neg : Bool) (m : Nat) (e : Int) : Nat :=
  if f = 7 then
    let a : Int := (min (dyRound m (e + 6)) 127 : Nat)
    (toByte (if neg then -a else a)).toNat
  else
    let x := mxFmt f
    let emin : Int := 1 - (x.bias : Int)
    let ex := if m = 0 then emin else max (dyLog m e) emin
    let q := dyRound m (e - ex + x.mb)
    let c := if q < 2 ^ x.mb then q else (ex + x.bias).toNat * 2 ^ x.mb + (q - 2 ^ x.mb)
    (if neg then 2 ^ (x.eb + x.mb) else 0) + min c x.top

/-- Pack element codes of width w from bit 0 upward (R59). -/
def packBits (w : Nat) : List Nat → Nat
  | [] => 0
  | c :: cs => c % 2 ^ w + 2 ^ w * packBits w cs

/-- Unpack n codes of width w. -/
def unpackBits (w : Nat) : Nat → Nat → List Nat
  | 0, _ => []
  | n + 1, x => x % 2 ^ w :: unpackBits w n (x / 2 ^ w)

/-- One MX block of 32 FP32 values: bytes, and values replaced under R60. -/
def mxBlock (f : Nat) (xs : List Word) : List Byte × Nat :=
  let vs := xs.map convIn
  let amax := (vs.filter fun v => v.2.1 ≠ 0).map fun v => dyLog v.2.1 v.2.2.1
  let emax : Int := if f = 7 then 0 else (mxFmt f).emax
  let X : Int := match amax.max? with
    | none => 0
    | some l => min 254 (max 0 (l - emax + 127))
  let codes := vs.map fun v => mxEnc f v.1 v.2.1 (v.2.2.1 - (X - 127))
  (toByte X :: leBytes (4 * mxWidth f) (packBits (mxWidth f) codes), (vs.filter fun v => v.2.2.2).length)

/-- Read one MX block: FP32 values, elements replaced, and whether the scale was 0xFF (R59). -/
def mxRead (f : Nat) (bs : List Byte) : List Word × Nat × Bool :=
  let X := (bs.headD 0).toNat
  let codes := unpackBits (mxWidth f) 32 (leNat bs.tail)
  if X = 255 then (codes.map fun _ => 0, 0, true)
  else
    (codes.map fun c => match mxDec f c with
        | none => 0
        | some (n, m, e) => fEnc n m (e + X - 127),
     (codes.filter fun c => (mxDec f c).isNone).length, false)

/-- The largest block scale of a vector of MX blocks, scale 0xFF apart (R57, R59). -/
def mxTop (bl : List (List Byte)) : Nat :=
  bl.foldl (fun m b => if (b.headD 0).toNat = 255 then m else max m (b.headD 0).toNat) 0
/-- An MXINT8 block of a vector whose largest block scale is E (R57): each element is shifted right by E − X, rounded to nearest
with ties to even, and stands for a × 2^(E − 133) (R54). DEDUCED, log 212: VCVF is the conversion (R95: MX under R57), and
VCVA gives the same values again. -/
def mxInt (E : Nat) (bs : List Byte) : List Word × Nat × Bool :=
  let X := (bs.headD 0).toNat
  let codes := unpackBits 8 32 (leNat bs.tail)
  if X = 255 then (codes.map fun _ => 0, 0, true)
  else
    (codes.map fun c =>
      let v := s8 (BitVec.ofNat 8 c)
      fEnc (decide (v < 0)) (natShrRne v.natAbs (E - X)) ((E : Int) - 133), 0, false)

/-! ### KV formats (R61 to R64) -/

/-- Element width and qmax of FMT 8, 9, 0xA (R61). -/
def kvWidth (f : Nat) : Nat := if f = 8 then 4 else if f = 9 then 6 else 8
/-- Largest element magnitude as used. -/
def kvMax (f : Nat) : Nat := if f = 8 then 7 else if f = 9 then 31 else 127

/-- BF16 scale of amax = m × 2ᵉ over qmax, rounded upward, at least 2⁻¹²¹ (R62). -/
def kvScale (m : Nat) (e : Int) (qmax : Nat) : Nat :=
  if m = 0 then 6 * 128
  else
    -- sig × 2^k ≥ m × 2^e ÷ qmax with 128 ≤ sig < 256
    let num := m * 2 ^ 16
    let l : Int := (Nat.log2 (num / qmax) : Int) - 7
    let sig := (num + qmax * 2 ^ l.toNat - 1) / (qmax * 2 ^ l.toNat)
    let k : Int := e - 16 + l + (if sig ≥ 256 then 1 else 0)
    let man := if sig ≥ 256 then 0 else sig - 128
    let ef : Int := k + 134
    if ef < 6 then 6 * 128 else ef.toNat * 128 + man

/-- A BF16 scale as significand and exponent: M × 2^(e_s − 134) (R63). -/
def scaleDy (s : Nat) : Nat × Int := (128 + s % 128, ((s / 128 % 256 : Nat) : Int) - 134)

/-- num ÷ den rounded to nearest, ties to even. -/
def divRne (num den : Nat) : Nat :=
  let q := num / den
  let r := num % den
  if 2 * r < den then q else if 2 * r > den then q + 1 else q + q % 2

/-- One element of R64: code, and new residual as BF16, for u = ± m × 2ᵉ under scale s. -/
def kvElem (qmax s : Nat) (neg : Bool) (m : Nat) (e : Int) : Int × Nat :=
  let (M, se) := scaleDy s
  let lo := min e se
  let um := m * 2 ^ (e - lo).toNat
  let sm := M * 2 ^ (se - lo).toNat
  let q := min (divRne um sm) qmax
  let d : Int := (um : Int) - (q * sm : Nat)
  let d := if 2 * d > sm then (sm : Int) else if 2 * d < -(sm : Int) then -(sm : Int) else 2 * d
  let dn := if neg then decide (d > 0) else decide (d < 0)
  (if neg then -(q : Int) else q, fToBf (fEnc dn d.natAbs (lo - 1)))

/-- R62 and R64 of one head vector: 128 FP32 values and 128 BF16 residuals give element bytes, scale, new residuals
and the count of values replaced under R60. -/
def kvQuant (f : Nat) (xs : List Word) (rs : List Nat) : List Byte × Nat × List Nat × Nat :=
  let us := (xs.zip rs).map fun (x, r) => convIn (fAdd x (bfToF r))
  let top := us.foldl (fun (a : Nat × Int) v =>
    let lo := min a.2 v.2.2.1
    if v.2.1 = 0 then a else if a.1 = 0 then (v.2.1, v.2.2.1)
    else if a.1 * 2 ^ (a.2 - lo).toNat < v.2.1 * 2 ^ (v.2.2.1 - lo).toNat then (v.2.1, v.2.2.1) else a) (0, 0)
  let s := kvScale top.1 top.2 (kvMax f)
  let el := us.map fun v => kvElem (kvMax f) s v.1 v.2.1 v.2.2.1
  let w := kvWidth f
  (leBytes (16 * w) (packBits w (el.map fun q => (q.1 % 2 ^ w).toNat)), s, el.map (·.2),
    (us.filter fun v => v.2.2.2).length)

/-! ### Dequantisation (R54) -/

/-- P × S × 2^(e_ref − 133), rounded once to FP32; S is a BF16. -/
def dequant (p : Int) (s : Nat) (eref : Int) : Word :=
  match fDec (bfToF s) with
  | .nan => qNaN
  | .inf n => if p = 0 then qNaN else fInf (n != decide (p < 0))
  | .fin n m e => fEnc (n != decide (p < 0)) (p.natAbs * m) (e + eref - 133)

/-- a × 2^(E − 133) in FP32 (R54, FMT 0xB). -/
def engineToF (a : Byte) (E : Nat) : Word := fEnc (decide (s8 a < 0)) (s8 a).natAbs ((E : Int) - 133)

/-- A raw 32-bit word as a signed integer (FMT 0xC). -/
def i32 (w : Word) : Int := w.toInt

end Sys2Proof.Machine
end

