-- ==== Sys2Proof/Machine/CoreVector.lean ====
section
/-!
DEFINITION. Vector and conversion instructions (R54 to R64, R93 to R95).
-/
namespace Sys2Proof.Machine

/-- Scoreboard slot of a vector register. -/
def vSlot (r : Nat) : Nat := 64 + r % 32

/-- A lane-wise vector instruction: only the lanes the predicate allows are written (R83). -/
def execLanes (op c : Nat) (w : DWord) (s : State) (reads : List Nat) (lat : Nat) (f : Core → Nat → Word) : Out :=
  issueCore op c w s (reads ++ [96 + fld w 57 55]) [vSlot (fld w 53 49)] 1 lat true
    fun k => k.setLanes (fld w 53 49) (k.predBits w) (f k)

/-- Sources A, B and C of format V. -/
def va (w : DWord) : Nat := fld w 48 44
/-- Source B. -/
def vb (w : DWord) : Nat := fld w 43 39
/-- Source C. -/
def vc (w : DWord) : Nat := fld w 38 34

/-- VADD. -/
def execVadd (c : Nat) (w : DWord) (s : State) : Out :=
  execLanes 0x16 c w s [vSlot (va w), vSlot (vb w)] 4 fun k l => fAdd (k.vlane (va w) l) (k.vlane (vb w) l)
/-- VSUB. -/
def execVsub (c : Nat) (w : DWord) (s : State) : Out :=
  execLanes 0x17 c w s [vSlot (va w), vSlot (vb w)] 4 fun k l => fSub (k.vlane (va w) l) (k.vlane (vb w) l)
/-- VMUL. -/
def execVmul (c : Nat) (w : DWord) (s : State) : Out :=
  execLanes 0x18 c w s [vSlot (va w), vSlot (vb w)] 4 fun k l => fMul (k.vlane (va w) l) (k.vlane (vb w) l)
/-- VFMA, one rounding. -/
def execVfma (c : Nat) (w : DWord) (s : State) : Out :=
  execLanes 0x19 c w s [vSlot (va w), vSlot (vb w), vSlot (vc w)] 4
    fun k l => fFma (k.vlane (va w) l) (k.vlane (vb w) l) (k.vlane (vc w) l)
/-- VMAX. -/
def execVmax (c : Nat) (w : DWord) (s : State) : Out :=
  execLanes 0x1A c w s [vSlot (va w), vSlot (vb w)] 4 fun k l => fPick true (k.vlane (va w) l) (k.vlane (vb w) l)
/-- VMIN. -/
def execVmin (c : Nat) (w : DWord) (s : State) : Out :=
  execLanes 0x1B c w s [vSlot (va w), vSlot (vb w)] 4 fun k l => fPick false (k.vlane (va w) l) (k.vlane (vb w) l)
/-- VEXP. -/
def execVexp (c : Nat) (w : DWord) (s : State) : Out :=
  execLanes 0x1C c w s [vSlot (va w)] 8 fun k l => fExp (k.vlane (va w) l)
/-- VRCP. -/
def execVrcp (c : Nat) (w : DWord) (s : State) : Out :=
  execLanes 0x1D c w s [vSlot (va w)] 8 fun k l => fRcp (k.vlane (va w) l)
/-- VRSQ. -/
def execVrsq (c : Nat) (w : DWord) (s : State) : Out :=
  execLanes 0x1E c w s [vSlot (va w)] 8 fun k l => fRsq (k.vlane (va w) l)
/-- VACT: FN 0 GELU, 1 SiLU. -/
def execVact (c : Nat) (w : DWord) (s : State) : Out :=
  execLanes 0x1F c w s [vSlot (va w)] 10 fun k l => fAct (fld w 30 27) (k.vlane (va w) l)

/-- VCMP: PS lanes that the predicate allows take the comparison. -/
def execVcmp (c : Nat) (w : DWord) (s : State) : Out :=
  issueCore 0x20 c w s [vSlot (va w), vSlot (vb w), 96 + fld w 57 55] [96 + fld w 33 31] 1 4 true fun k =>
    k.setP (fld w 33 31) ((List.range 16).foldl (fun (m : BitVec 16) l =>
      if (k.predBits w).getLsbD l then
        (if fCmp (fld w 30 27) (k.vlane (va w) l) (k.vlane (vb w) l) then m ||| BitVec.ofNat 16 (2 ^ l)
         else m &&& ~~~BitVec.ofNat 16 (2 ^ l))
      else m) (k.preg (fld w 33 31)))

/-- VSEL: VA where the PS lane is 1, else VB. -/
def execVsel (c : Nat) (w : DWord) (s : State) : Out :=
  execLanes 0x21 c w s [vSlot (va w), vSlot (vb w), 96 + fld w 33 31] 4 fun k l =>
    if (k.preg (fld w 33 31)).getLsbD l then k.vlane (va w) l else k.vlane (vb w) l

/-- One level of the fixed pairwise tree of VRED. -/
def pairUp (f : Word → Word → Word) : List Word → List Word
  | a :: b :: r => f a b :: pairUp f r
  | r => r

/-- VRED over the sixteen lanes: lanes whose predicate is 0 count as 0 in a sum and −∞ in a maximum (R95). -/
def vred (fn : Nat) (m : BitVec 16) (x : Nat → Word) : Word :=
  let f := if fn = 0 then fAdd else fPick true
  let xs := (List.range 16).map fun l => if m.getLsbD l then x l else if fn = 0 then 0 else fInf true
  (pairUp f (pairUp f (pairUp f (pairUp f xs)))).headD 0

/-- VRED: the result goes to every lane the predicate allows. -/
def execVred (c : Nat) (w : DWord) (s : State) : Out :=
  execLanes 0x22 c w s [vSlot (va w)] 8 fun k _ => vred (fld w 30 27) (k.predBits w) fun l => k.vlane (va w) l

/-- VBCST: FN 0 a scalar register as FP32 bits, FN 1 lane VC[3:0] of VA. -/
def execVbcst (c : Nat) (w : DWord) (s : State) : Out :=
  execLanes 0x23 c w s (if fld w 30 27 = 0 then [vb w] else [vSlot (va w)]) 4 fun k _ =>
    if fld w 30 27 = 0 then k.sreg (vb w) else k.vlane (va w) (fld w 37 34)

/-! ### Conversions -/

/-- Registers r to r + n − 1 as scoreboard slots. -/
def vGroup (r n : Nat) : List Nat := (List.range n).map fun i => vSlot (r + i)
/-- Lanes of n registers from r on. -/
def Core.lanes (k : Core) (r n : Nat) : List Word :=
  (List.range (16 * n)).map fun i => k.vlane (r + i / 16) (i % 16)
/-- Write lanes of registers from r on. -/
def Core.putLanes (k : Core) (r : Nat) (xs : List Word) : Core :=
  (xs.zipIdx).foldl (fun k (x, i) => k.setLane (r + i / 16) (i % 16) x) k

/-- Class 0x06 or 0x07 of a conversion, once per instruction with the values affected (R60, R424). -/
def State.convEvent (s : State) (c cls src n : Nat) : State :=
  if n = 0 then s else s.coreEvent c cls (sp [(0, 1, src), (4, 2, (s.core c).pc.toNat), (8, 4, n)])

/-- E_fix of a conversion for a group, where the group is on the 8-bit activation path (R68, R69). -/
def State.eFix (s : State) (c entry : Nat) : Option Nat :=
  match s.partOf c with
  | none => none
  | some p => ((s.part p).exps[entry]?).bind fun e => if e.onPath (s.part p).act8 then some e.eSeen else none
/-- The highest slice exponent seen for a group in the step rises (R69). -/
def State.seeExp (s : State) (c entry E : Nat) : State :=
  match s.partOf c with
  | none => s
  | some p => s.updPart p fun x => x.updExp entry fun e => { e with eSeen := max e.eSeen E }

/-- VCVA: CNT registers to the engine activation format at AD, the slice exponent to AD's shadow byte (R56, R78). `entry` is the
exponent table entry of the group the vector feeds, as the program is compiled: a group on the 8-bit activation path
converts at E_fix, and the runs before it leave the highest slice exponent they saw (R69). -/
def execVcva (c : Nat) (w : DWord) (entry : Nat) (s : State) : Out :=
  let n := fld w 36 32
  issue 0x24 c w s (vGroup (fld w 53 49) n ++ [32 + fld w 48 45]) [] (2 * n) 0 0 false
    (fun start s =>
      let k := s.core c
      let act8 := (s.part ((s.partOf c).getD 0)).act8
      let fix := s.eFix c entry
      let a := toEngine (k.lanes (fld w 53 49) n) fix
      let ad := (k.areg (fld w 48 45)).toNat
      let addr := inPad 1 (ad / 64 * 64)
      let s := s.convEvent c 0x06 0 a.nonfin
      let s := s.convEvent c 0x07 (if a.ovf then 3 else 4) (if a.ovf ∨ fix.isSome = true then a.clamp else 0)
      let s := if a.ovf then (s.updCore c fun k => { k with bxo := true }).updCluster (c / 72) fun u =>
          { u with engStat := u.engStat ||| 2 } else s
      let s := if ad % 64 ≠ 0 then s.hazard c 4 2 ad 0 0 else s
      let s := if addr + a.ints.length > 0x20000 then s.hazard c 5 2 ad 0 0 else s
      let s := s.padStoreA c 2 addr a.ints (start + 2 * n + 4)
      let s := if act8 then s else s.seeExp c entry a.exp
      (if (accessCause (s.cluster (c / 72)).banks addr 1).isSome then s
       else s.updCore c fun k =>
         { k.watch [] [addr / 64] (start + 2 * n + 4) k.pc.toNat 2 with
           shadow := tset k.shadow 0 (addr / 64) (BitVec.ofNat 8 a.exp) }, true))
    (fun _ s => s) Core.advance

/-- VCVM: CNT blocks to an MX format from AD on (R59). -/
def execVcvm (c : Nat) (w : DWord) (s : State) : Out :=
  let n := fld w 36 32
  let f := fld w 40 37
  issue 0x25 c w s (vGroup (fld w 53 49) (2 * n) ++ [32 + fld w 48 45]) [] (2 * n) 0 0 false
    (fun start s =>
      let k := s.core c
      let blocks := (List.range n).map fun i => mxBlock f (k.lanes (fld w 53 49 + 2 * i) 2)
      let s := s.convEvent c 0x06 0 ((blocks.map (·.2)).sum)
      (s.padStore c 2 (k.areg (fld w 48 45)).toNat (blocks.flatMap (·.1)) (start + 2 * n + 4), true))
    (fun _ s => s) Core.advance

/-- Bytes that n registers' worth of values take in a format (R59, R95). -/
def vcvfBytes (f n : Nat) : Nat :=
  if f = 0 ∨ f = 0xC then 64 * n else if f = 1 then 32 * n else if f = 0xB then 16 * n else (n + 1) / 2 * mxBytes f

/-- Values of a format from bytes: FP32 words, MX elements replaced, NaN scales (R54, R57, R59). -/
def vcvfVals (f n : Nat) (bs : List Byte) (E : Nat) : List Word × Nat × Nat :=
  if f = 0 then ((chunks 4 (16 * n) bs).map fun b => BitVec.ofNat 32 (leNat b), 0, 0)
  else if f = 0xC then
    ((chunks 4 (16 * n) bs).map fun b =>
      let p := i32 (BitVec.ofNat 32 (leNat b)); fEnc (decide (p < 0)) p.natAbs 0, 0, 0)
  else if f = 1 then ((chunks 2 (16 * n) bs).map fun b => bfToF (leNat b), 0, 0)
  else if f = 0xB then (bs.map fun b => engineToF b E, 0, 0)
  else
    let bl := chunks (mxBytes f) ((n + 1) / 2) bs
    let top := mxTop bl
    let blocks := bl.map fun b => if f = 7 then mxInt top b else mxRead f b
    ((blocks.flatMap (·.1)).take (16 * n), (blocks.map (·.2.1)).sum, (blocks.filter (·.2.2)).length)

/-- VCVF: CNT registers' worth of values in FMT from AD to FP32. CNT = 0 converts nothing in one issue cycle (DESIGN CHOICE, log
210), and an AD outside the A-pad takes the shadow byte of its address modulo 128 KiB (DESIGN CHOICE, log 211). -/
def execVcvf (c : Nat) (w : DWord) (s : State) (es : List PadErr := []) : Out :=
  let n := fld w 36 32
  let f := fld w 40 37
  issue 0x26 c w s [32 + fld w 48 45] (vGroup (fld w 53 49) n) (max 1 n) (n + 4) 0 false
    (fun start s =>
      let addr := ((s.core c).areg (fld w 48 45)).toNat
      let (s, bs) := s.padRead c 2 addr (vcvfBytes f n) start es
      let E := (tget ((s.core c).padAt start).shadow 0 (addr % 0x20000 / 64)).toNat
      let (xs, bad, nans) := vcvfVals f n bs E
      let s := (s.convEvent c 0x06 2 bad).convEvent c 0x06 1 nans
      (s.updCore c fun k => k.putLanes (fld w 53 49) xs, true))
    (fun _ s => s) Core.advance

/-- VQKV: quantise a head vector of eight registers with error diffusion (R62, R64). -/
def execVqkv (c : Nat) (w : DWord) (s : State) (es : List PadErr := []) : Out :=
  let f := fld w 40 37
  issue 0x27 c w s (vGroup (fld w 53 49) 8 ++ [32 + fld w 48 45, 32 + fld w 44 41]) [fld w 31 27] 16 22 0 false
    (fun start s =>
      let k := s.core c
      let ax := (k.areg (fld w 44 41)).toNat
      let (s, rb) := s.padRead c 2 ax 256 start es
      let (el, sc, rs, bad) := kvQuant f (k.lanes (fld w 53 49) 8) ((chunks 2 128 rb).map leNat)
      let s := s.convEvent c 0x06 0 bad
      let s := s.padStore c 2 ax (rs.flatMap (leBytes 2)) (start + 22)
      let s := s.padStore c 2 (k.areg (fld w 48 45)).toNat el (start + 22)
      (s.updCore c fun k => k.setS (fld w 31 27) (BitVec.ofNat 32 sc), true))
    (fun _ s => s) Core.advance

/-- VDQP: CNT × 16 P-pad words to P × S × 2^(e_ref − 133) (R54). -/
def execVdqp (c : Nat) (w : DWord) (s : State) (es : List PadErr := []) : Out :=
  let n := fld w 36 32
  issue 0x28 c w s [32 + fld w 48 45, fld w 31 27, fld w 26 22] (vGroup (fld w 53 49) n) (max 1 n) (n + 5) 0 false
    (fun start s =>
      let k := s.core c
      let addr := inPad 2 (k.areg (fld w 48 45)).toNat
      let sc := (k.sreg (fld w 31 27)).toNat % 65536
      let er := (BitVec.ofNat 16 (k.sreg (fld w 26 22)).toNat).toInt
      let s := if addr + 64 * n > 0x60000 then s.hazard c 5 2 addr 0 0 else s
      let (s, bs) := s.readAt c 2 (padWrap 0x50000 0x10000 addr (64 * n)) start es
      (s.updCore c fun k => k.putLanes (fld w 53 49)
        ((chunks 4 (16 * n) bs).map fun b => dequant (i32 (BitVec.ofNat 32 (leNat b))) sc er), true))
    (fun _ s => s) Core.advance

end Sys2Proof.Machine
end

