-- ==== Sys2Proof/Machine/Power.lean ====
section
/-!
DEFINITION. Feeds, regulators, power measurement and caps, set points, power-on and switch-off of regions (R374 to R391).
-/
namespace Sys2Proof.Machine

/-! ### Feeds (R374, R375, R466) -/

/-- Feed A (false) or B (true). -/
def Power.feed (w : Power) (b : Bool) : Feed := if b then w.feedB else w.feedA
/-- Update a feed. -/
def State.updFeed (s : State) (b : Bool) (f : Feed → Feed) : State :=
  { s with pwr := if b then { s.pwr with feedB := f s.pwr.feedB } else { s.pwr with feedA := f s.pwr.feedA } }
/-- Class 0x20: feed, cause and voltage. -/
def State.feedEv (s : State) (b : Bool) (cause : Nat) : State :=
  s.raise (s.edgeEv 0x20 (sp [(0, 1, b.toNat), (1, 1, cause), (4, 2, (s.pwr.feed b).volt)]))
/-- Both feeds lost: everything but what a power loss leaves is gone, and the bypass latches (R307, R374). -/
def State.feedsLost (s : State) : State :=
  let s := s.moduleReset
  (s.updFeed false fun f => { Feed.reset with volt := f.volt }).updFeed true fun f => { Feed.reset with volt := f.volt }
/-- A feed that carries load is disconnected; with the other carrying none, both are lost. -/
def State.feedOff (s : State) (b : Bool) (cause volt : Nat) : State :=
  if !(s.pwr.feed b).on then s
  else
    let s := (s.updFeed b fun f => { f with on := false, ok := false, cur := 0, volt := volt }).feedEv b cause
    if (s.pwr.feed !b).on then s else s.feedsLost
/-- FEED_UNDERVOLTAGE: below 38.0 V for 100 µs; `volt` in 10 mV. -/
def execFeedUndervoltage (b : Bool) (volt : Nat) (s : State) : Out := if volt ≥ 3800 then .next s else .next (s.feedOff b 0 volt)
/-- FEED_OVERVOLTAGE: above 63.0 V. -/
def execFeedOvervoltage (b : Bool) (volt : Nat) (s : State) : Out := if volt ≤ 6300 then .next s else .next (s.feedOff b 1 volt)
/-- FEED_PRESENT_OPEN: the PRESENT pin opens while the feed carries load (R466); with the other feed out of range both are
lost (R475). -/
def execFeedPresentOpen (b : Bool) (s : State) : Out :=
  let t := s.feedOff b 3 (s.pwr.feed b).volt
  .next (if (s.pwr.feed b).on ∧ (s.pwr.feed !b).on ∧ !(s.pwr.feed !b).ok then t.feedsLost else t)
/-- FEED_RETURN: 39.5 V to 61.0 V for 100 ms, with no removal requested (R374, R375). -/
def execFeedReturn (b : Bool) (volt : Nat) (s : State) : Out :=
  let f := s.pwr.feed b
  if f.on ∨ f.req ∨ volt < 3950 ∨ volt > 6100 then .next s
  else .next ((s.updFeed b fun f => { f with on := true, ok := decide (4000 ≤ volt) && decide (volt ≤ 6000), volt := volt }).feedEv b 2)
/-- BOTH_FEEDS_LOST. -/
def execBothFeedsLost (s : State) : Out := .next s.feedsLost
/-- One feed's REQ as written: 1 opens its OR-ing stage unless the other feed is out of range, when it is refused; 0 gives it
back to the return rule. -/
def State.feedReq (s : State) (b req : Bool) : State :=
  let f := s.pwr.feed b
  let o := s.pwr.feed !b
  if !req then s.updFeed b fun f => { f with req := false, safe := false }
  else if f.req ∨ !o.ok ∨ !o.on then s
  else
    let s := if f.on then (s.updFeed b fun f => { f with on := false, cur := 0 }).feedEv b 4 else s
    s.updFeed b fun f => { f with req := true, safe := true }
/-- Write PWR_FEED_CTL (R393): REQ_A, then REQ_B. -/
def State.writeFeedCtl (_ : Session) (v : Word) (s : State) : State × Nat :=
  ((s.feedReq false (v.getLsbD 0)).feedReq true (v.getLsbD 1), stOk)
/-- PWR_FEED_CTL as it stands, with one REQ bit given. -/
def State.feedWord (s : State) (b req : Bool) : Word :=
  BitVec.ofNat 32 ((if b then s.pwr.feedA.req else req).toNat + 2 * (if b then req else s.pwr.feedB.req).toNat)
/-- FEED_REMOVAL_REQUEST: a write of PWR_FEED_CTL with the feed's REQ 1. -/
def execFeedRemovalRequest (m : Msg) (b : Bool) (s : State) : Out :=
  s.onRegWrite m 0x3000C fun h s => s.writeFeedCtl h (s.feedWord b true)
/-- FEED_REQ_CLEAR: a write of PWR_FEED_CTL with the feed's REQ 0. -/
def execFeedReqClear (m : Msg) (b : Bool) (s : State) : Out :=
  s.onRegWrite m 0x3000C fun h s => s.writeFeedCtl h (s.feedWord b false)

/-! ### Power-on of a region (R384, R385) -/

/-- The power-on of region r in progress. -/
def State.onOf (s : State) (r : Nat) : Option PowerOn := s.pwr.ons.find? fun o => decide (o.region = r)
/-- Update it. -/
def State.updOn (s : State) (r : Nat) (f : PowerOn → PowerOn) : State :=
  { s with pwr := { s.pwr with ons := s.pwr.ons.map fun o => if o.region = r then f o else o } }
/-- It ends. -/
def State.dropOn (s : State) (r : Nat) : State := { s with pwr := { s.pwr with ons := s.pwr.ons.filter fun o => decide (o.region ≠ r) } }
/-- The regions of r's supply zone, its skein (R376). -/
def zoneOf (r : Nat) : List Nat := (List.range 64).filter fun q => decide (skein q = skein r)
/-- Pre-emptive lulls of a zone end. -/
def State.endGust (s : State) (r : Nat) : State :=
  (zoneOf r).foldl (fun s q => s.updRegion q fun g => { g with pwr := { g.pwr with gust := ⟨0, 0, 0⟩, gustAt := [] } }) s
/-- Contents a region loses with VCORE: pads, registers, lane words and switch traffic; dead cores stay dead. -/
def State.regionLost (s : State) (r : Nat) : State :=
  let s := (List.range 1152).foldl (fun s i => s.updCore (1152 * r + i) fun k => { Core.reset with dead := k.dead, vacant := k.vacant }) s
  { s with links := s.links.filter fun x => decide (x.1 / 8 / 1152 ≠ r) }
/-- A power-on fails (R384): cause recorded, class 0x22, and the region back where it was. A load of a partition with the
region ends with PARTITION_BUSY; at a start the region is unusable, and causes 5 and 6 of R439 are judged. -/
def State.powerOnFails (s : State) (r cause : Nat) : State :=
  match s.onOf r with
  | none => s
  | some o =>
    let s := (s.dropOn r).updRegion r fun g => { g with pwr := { g.pwr with cause := cause }, thm := { g.thm with coolN := 0 } }
    let s := s.raise (s.regionEv r 0x22 (sp [(1, 1, cause), (2, 2, (s.region r).pwr.tries)]))
    let s := if o.stage = 0 then s
      else
        let s := ((s.endGust r).stopClock r).setPwr r (if o.fromOff then 0 else 1)
        if o.fromOff then s.regionLost r else s
    let s := partNums.foldl (fun s p =>
      if (s.part p).state = .loading ∧ (s.allRegions p).contains r then (s.loadEnds p 0 0 stBusy).setSeams else s) s
    if s.boot.start ≠ 1 then s
    else
      let s := s.addSlub (mkSlub 6 r 0xFF 0xFF (1 + 16 * 9) 0 0 s.clk.wtime)
      let s := s.updRegion r fun g => { g with agt := { g.agt with unusable := true } }
      (s.failedAtStart r).judgeStart
/-- Limit of a group in A by its working regulators (R380). -/
def groupLimit (ok : BitVec 4) : Nat :=
  let n := ((List.range 4).filter fun i => ok.getLsbD i).length
  if n ≥ 3 then 24 else if n = 2 then 16 else 0
/-- Cluster g goes dark (R380): its last regulator is disconnected, its cores are dead with what they held, a slub of KIND 5
is entered, and its partition goes down with cause 3. -/
def State.darken (s : State) (g origin : Nat) : State :=
  if (s.grp g).dark then s
  else
    let s := s.updGrp g fun x => { x with dark := true, ok := 0, limit := 0 }
    let s := s.updCluster g fun u => { u with dark := true }
    let s := (List.range 72).foldl (fun s i => s.updCore (72 * g + i) fun k => { Core.reset with dead := true, vacant := k.vacant }) s
    let s := s.addSlub (mkSlub 5 (g / 16) (g % 16) 0xFF origin 0 0 s.clk.wtime)
    match (s.region (g / 16)).part with
    | some p => s.downCauseAt p 3
    | none => s
/-- Class 0x21 of a group. -/
def State.regulatorEv (s : State) (g i cause : Nat) : State := s.raise (s.clusterEv g 0x21 (sp [(0, 1, i), (1, 1, cause), (2, 2, g)]))
/-- Start check of a group's regulators at a power-on (R379, R411): one that fails stays out, after three failures with a slub
of KIND 8; the others work. -/
def State.startCheck (s : State) (g : Nat) (fails : List Nat) : State :=
  if (s.grp g).dark then s
  else (List.range 4).foldl (fun s i =>
    let x := s.grp g
    let n := tget x.fails 0 i
    if n ≥ 3 then s
    else if fails.contains i then
      let s := (s.updGrp g fun x => { x with ok := x.ok &&& ~~~(BitVec.ofNat 4 (2 ^ i)), fails := tset x.fails 0 i (n + 1) }).regulatorEv g i 4
      let s := s.updGrp g fun x => { x with limit := groupLimit x.ok }
      if n + 1 ≥ 3 then s.addSlub (mkSlub 8 (g / 16) (g % 16) 0xFF 1 i 0 s.clk.wtime) else s
    else s.updGrp g fun x => { x with ok := x.ok ||| BitVec.ofNat 4 (2 ^ i), limit := groupLimit (x.ok ||| BitVec.ofNat 4 (2 ^ i)) }) s
/-- Set point of the record in use, at K = 16, within 0.60 V and 0.85 V (R377, R455). -/
def State.vset (s : State) (r : Nat) : Nat := max 600 (min 850 (calAt s.boot.calUse (0x2880 + 2 * r) 2))
/-- Highest 10 µs VIN current of a zone over the last 1 ms, 0.1 A. -/
def Power.zonePeak (w : Power) (z : Nat) : Nat := (w.window.map fun m => m.zones.getD z 0).foldl max 0
/-- Cause that bars an admission now: 1 the zone's headroom, 2 the module's. -/
def State.gustBar (s : State) (r : Nat) : Option Nat :=
  if s.pwr.zonePeak (skein r) + 1600 > 8500 then some 1
  else if (s.pwr.window.head?.map (·.pin)).getD 0 + 300 > 32000 then some 2
  else none
/-- The ramp of region r begins: VCORE toward the set point, rclk from K = 8, regulators checked, and the zone's other
running regions capped at their currents. A group short of regulators goes dark after OFF, and fails the power-on
after RETAIN (R384 cause 3, R411). -/
def State.beginRamp (s : State) (r : Nat) (o : PowerOn) (regs : List (Nat × Nat)) : State :=
  let s := s.updOn r fun o => { o with stage := 1, last := s.clk.wtime }
  let s := s.setPwr r 4
  let s := (List.range 16).foldl (fun s i =>
    s.startCheck (16 * r + i) ((regs.filter fun x => decide (x.1 = i)).map (·.2))) s
  let short := (List.range 16).filter fun i => !(s.grp (16 * r + i)).dark && decide ((s.grp (16 * r + i)).limit = 0)
  if short ≠ [] ∧ !o.fromOff then s.powerOnFails r 3
  else
    let s := short.foldl (fun s i => s.darken (16 * r + i) 1) s
    let s := s.updRegion r fun g =>
      { g with pwr := { g.pwr with setpt := s.vset r, highSince := none, quiet := 0, trimBase := g.clk.stretchNow }
               clk := if g.part.isNone ∨ g.clk.kCap = 0 then { g.clk with kCap := 16, kFloor := 8 } else g.clk }
    let s := s.startClock r
    let now := (s.pwr.window.head?.map (·.groups)).getD []
    (zoneOf r).foldl (fun s q =>
      if q ≠ r ∧ (s.region q).pwr.state = 3 then
        s.updRegion q fun g => { g with pwr := { g.pwr with gustAt := (List.range 16).map fun i => now.getD (16 * q + i) 0 } }
      else s) s
/-- The cores of region r take the partition's configuration again, its seams and credits empty (R385). -/
def State.reloadRegion (s : State) (p r : Nat) : State :=
  let g := (s.part p).coreCfg
  let s := ((s.writeRemap r).writeBanks p r).setSeams
  let s := (List.range (s.part p).coreCount).foldl (fun s i =>
    let c := s.partCore p i
    if regionOf c = r then s.updCore c fun k => k.configure g i else s) s
  let s := (List.range 16).foldl (fun s i =>
    let u := 16 * r + i
    let m := (List.range 8).foldl (fun a row => if (s.core (s.physOf u row 0)).vacant then a + 2 ^ row else a) 0
    s.updCluster u fun y => { y with vacant := BitVec.ofNat 8 m }) s
  let s := (s.liveCores r).foldl (fun s c =>
    let t := s.creditsOf c
    s.updCore c fun k => { k.emptied with creditInit := t, credit := t }) s
  s.writeGroups p
/-- Class 0x28: junction, threshold in °C, crossing, temperature. -/
def State.thresholdEv (s : State) (r dram deg released : Nat) (t : Int) : State :=
  s.raise (s.regionEv r 0x28 (sp [(0, 1, dram), (1, 1, deg), (2, 1, released), (4, 2, inField 16 t)]))
/-- The thresholds of R397 at which a region stops, as `force` numbers them: junction and °C. -/
def stopThresholds : List (Nat × Nat) := [(0, 110), (0, 118), (1, 95), (1, 105)]
/-- Thresholds that a restart releases are released: class 0x28 for each in force (R397). -/
def State.stopsOver (s : State) (r : Nat) : State :=
  let t := (s.region r).thm
  let s := s.updRegion r fun g => { g with thm := { g.thm with force := g.thm.force &&& 8 } }
  [0, 1, 2].foldl (fun s i =>
    if t.force.getLsbD i then
      let (j, deg) := stopThresholds.getD i (0, 0)
      s.thresholdEv r j deg 1 (if j = 0 then t.logic else t.dram)
    else s) s
/-- A region that was off for heat has restarted: its thresholds are released, class 0x29 subkind 2 (R397, R401). -/
def State.heatOver (s : State) (r : Nat) : State :=
  let heat := (s.region r).thm.off
  let s := s.stopsOver r
  let s := s.updRegion r fun g => { g with thm := { g.thm with off := false, hot := false, coolN := 0 } }
  if heat then s.raise (s.regionEv r 0x29 (sp [(0, 1, 2), (4, 2, inField 16 (s.region r).thm.logic)])) else s
/-- A partition's routes need the pair of switch h (R166, R172): the root halves where it spans quadrants, a quadrant's trunks
where it has regions of several skeins and one in the quadrant. -/
def State.needsPair (s : State) (p h : Nat) : Bool :=
  let rs := s.partRegions p
  if h ≥ 8 then decide ((rs.map quadrant).eraseDups.length > 1)
  else rs.any (fun r => decide (quadrant r = h / 2)) && decide ((rs.map skein).eraseDups.length > 1)
/-- Partition p may run again after a hold for heat: every region powered and none hot, and no pair it needs wholly dark. -/
def State.coolEnough (s : State) (p : Nat) : Bool :=
  (s.partRegions p).all (fun q => pwrUp (s.region q).pwr.state && !(s.region q).thm.hot)
    && (List.range 10).all fun h => s.swUp h || s.swUp (pairOf h) || !s.needsPair p h
/-- Holds for heat end where nothing keeps them (R181, R386, R400, R401). -/
def State.endHeatHolds (s : State) : State :=
  partNums.foldl (fun s p =>
    if (s.part p).state = .ready ∧ (s.part p).held = 2 ∧ s.coolEnough p then s.releasePart p else s) s
/-- The region's partition after its power-on: configuration reloaded after OFF, seams set. -/
def State.rejoin (s : State) (r : Nat) (fromOff : Bool) : State :=
  match (s.region r).part with
  | none => s
  | some p =>
    if fromOff && decide ((s.part p).state = .ready) then s.reloadRegion p r else s.setSeams
/-- A start goes on to its next region; one the self-test found unusable is left in OFF (R411, R438). -/
def State.startNext (s : State) (r : Nat) : State :=
  if s.boot.start ≠ 1 then s
  else if (s.region r).agt.unusable then ((((s.stopClock r).setPwr r 0).regionLost r).failedAtStart r).judgeStart
  else { s with boot := { s.boot with order := s.boot.order.filter (· ≠ r) } }.nextPowerOn
/-- What the self-test of region r after OFF found (R411): slubs with ORIGIN 1, cores dead, rows retired; a seam queue that
fails makes the region unusable. -/
def State.selfTested (s : State) (r : Nat) (t : SelfTest) : State :=
  let s := t.rows.foldl (fun s (c, key) => if regionOf c = r ∧ key < 16384 then s.retireRow c key 0 1 else s) s
  let s := t.cores.foldl (fun s c => if regionOf c = r ∧ !t.lost.contains c then s.declareDead c 9 false else s) s
  let s := t.lost.foldl (fun s c => if regionOf c = r then s.declareDead c 9 true else s) s
  if t.seam then s.regionUnusable r 9 else s
/-- The last step of a power-on: the region is IDLE, its seams open where its partition's are, and what waited for it goes on:
a load, a held partition, the next region of a start. -/
def State.poweredOn (s : State) (r : Nat) (o : PowerOn) (bad : SelfTest) : State :=
  let s := (((s.dropOn r).setRet r true).stopClock r).setPwr r 2
  let s := if o.fromOff then s.activateRegions [r] else s
  let s := if o.fromOff then s.selfTested r bad else s
  let s := ((s.heatOver r).rejoin r o.fromOff).endHeatHolds
  (partNums.foldl (fun s p => if (s.allRegions p).contains r then s.continueLoad p else s) s).startNext r
/-- GUST_ADMIT: the steward takes a region's power-on a stage further (R384, R385). Waiting: admitted as the first request of
its zone with headroom, else refused until 1 ms later; `regs` the (cluster, regulator) that fail the start check.
Ramping, after 200 µs: lulls end and the hosted switch returns. Checking, by 2,900 µs: done; `bad` what
fails the self-test after OFF. -/
def execGustAdmit (r : Nat) (regs : List (Nat × Nat)) (bad : SelfTest) (s : State) : Out :=
  if r < 64 then
    let now := s.clk.wtime
    match s.onOf r with
    | none => .next s
    | some o =>
      if o.stage = 0 then
        let zone := s.pwr.ons.filter fun q => decide (skein q.region = skein r)
        if (zone.head?.map (·.region)) ≠ some r ∨ (o.last ≠ 0 ∧ now + 1 < o.last + msecs 1) then .next s
        else match s.gustBar r with
          | some c => .next ((s.updOn r fun o => { o with last := now + 1 }).updRegion r fun g =>
              { g with pwr := { g.pwr with cause := c, tries := min 0xFFFF (g.pwr.tries + 1) } })
          | none => .next (s.beginRamp r o regs)
      else if o.stage = 1 then
        if now < o.last + usecs 200 then .next s
        else .next (((s.endGust r).hostedTo r false).updOn r fun o => { o with stage := 2, last := now })
      else if now < o.last + usecs 2690 then .next s
      else .next (s.poweredOn r o bad)
  else .fault .noSuchUnit
/-- POWER_ON_REFUSED: 500 ms without admission (causes 1 and 2), VCORE off its set point 250 µs after admission (4), or a
hosted switch not ready 10 µs after the ramp (5). -/
def execPowerOnRefused (r cause : Nat) (s : State) : Out :=
  if r < 64 then
    let now := s.clk.wtime
    match s.onOf r with
    | none => .next s
    | some o =>
      let due := match cause with
        | 1 => decide (o.stage = 0) && decide ((s.region r).pwr.tries > 0) && decide ((s.region r).pwr.cause = 1) && decide (now ≥ o.since + msecs 500)
        | 2 => decide (o.stage = 0) && decide ((s.region r).pwr.tries > 0) && decide ((s.region r).pwr.cause = 2) && decide (now ≥ o.since + msecs 500)
        | 4 => decide (o.stage = 1) && decide (now ≥ o.last + usecs 250)
        | 5 => decide (o.stage = 1) && decide (now ≥ o.last + usecs 210) && (hostedBy r).isSome
        | _ => false
      if due then .next (s.powerOnFails r cause) else .next s
  else .fault .noSuchUnit
/-- REGULATOR_DISCONNECT: regulator i of group g leaves VCORE (causes 0 to 3); with fewer than two left the cluster goes dark,
and a ramp of its region fails with cause 3 (R379, R380, R391). -/
def execRegulatorDisconnect (g i cause : Nat) (s : State) : Out :=
  if g < 1024 ∧ i < 4 ∧ cause < 4 then
    if !(s.grp g).ok.getLsbD i then .next s
    else
      let s := (s.updGrp g fun x => { x with ok := x.ok &&& ~~~(BitVec.ofNat 4 (2 ^ i)) }).regulatorEv g i cause
      let s := s.updGrp g fun x => { x with limit := groupLimit x.ok }
      if (s.grp g).limit ≠ 0 then .next s
      else
        let s := if (s.region (g / 16)).pwr.state = 4 then s.powerOnFails (g / 16) 3 else s
        .next (s.darken g 2)
  else .fault .noSuchUnit

/-! ### Measurement and caps (R380, R381, R384, R390) -/

/-- Mean of a list of numbers. -/
def meanOf (l : List Nat) : Nat := if l = [] then 0 else l.foldl (· + ·) 0 / l.length
/-- Power charged to each partition (R381): its own and standby regions, and a share of the rest of P_in in proportion to
POWER_CAP; what division leaves over goes to the lowest-numbered. -/
def State.charges (s : State) (x : PowerMeas) : List Nat :=
  let on := partNums.filter fun p => (s.part p).loaded && decide ((s.part p).powCap ≠ 0)
  let own := fun p => ((s.allRegions p).map fun r => x.watts.getD r 0).foldl (· + ·) 0
  let total := (on.map own).foldl (· + ·) 0
  let caps := (on.map fun p => (s.part p).powCap).foldl (· + ·) 0
  let rest := x.pin - total
  let share := fun p => if caps = 0 then 0 else rest * (s.part p).powCap / caps
  let left := rest - (on.map share).foldl (· + ·) 0
  partNums.map fun p => if !on.contains p then 0 else own p + share p + if on.head? = some p then left else 0
/-- The heavier of two lulls, as shares of a frame. -/
def Lull.worse (a b : Lull) : Lull := if a.num * b.den < b.num * a.den ∨ (a.den = 0 ∧ b.den ≠ 0) then b else a
/-- Lull that holds a cluster of a given full-activity current and leakage at a limit (R380). -/
def Lull.hold (full leak limit : Nat) : Lull :=
  if full ≤ limit ∨ limit ≤ leak then ⟨0, 0, 0⟩ else ⟨full - limit, limit - leak, full - leak⟩
/-- POWER_MEASURE: one 10 µs measurement (R381, R390): registers, 1 ms means, energy, charges, and the forced and pre-emptive
lulls its currents ask for. -/
def execPowerMeasure (x : PowerMeas) (s : State) : Out :=
  let ch := s.charges x
  let m : Meas := { pin := x.pin, zones := (List.range 16).map fun z => x.zones.getD z 0
                    groups := (List.range 1024).map fun g => (x.groups.getD g (0, 0, 0)).1, charge := ch }
  let win := (m :: s.pwr.window).take 100
  let range := fun v => decide (4000 ≤ v) && decide (v ≤ 6000)
  let w := s.pwr
  let groups := (List.range 1024).foldl (fun t g => tupd t Group.reset g fun (y : Group) =>
    { y with cur := meanOf (win.map fun m => m.groups.getD g 0), peak := max y.peak (m.groups.getD g 0) }) w.groups
  let s := { s with pwr := { w with
    pin := meanOf (win.map (·.pin)), peak := max w.peak x.pin, energy := w.energy + x.pin, window := win, groups := groups
    feedA := { w.feedA with volt := x.voltA, cur := x.curA, ok := range x.voltA && w.feedA.on }
    feedB := { w.feedB with volt := x.voltB, cur := x.curB, ok := range x.voltB && w.feedB.on }
    zoneVin := (List.range 16).foldl (fun t z => tset t 0 z (meanOf (win.map fun m => m.zones.getD z 0))) w.zoneVin
    vvault := (List.range 64).foldl (fun t r => tset t 0 r (x.vvault.getD r 0)) w.vvault } }
  let s := (List.range 64).foldl (fun s r => s.updRegion r fun g =>
    let at_ := fun (lim : Nat → Nat) => (List.range 16).foldl (fun a i =>
      let (_, full, leak) := x.groups.getD (16 * r + i) (0, 0, 0)
      a.worse (Lull.hold full leak (lim i))) ⟨0, 0, 0⟩
    let run := decide (g.pwr.state = 3)
    { g with pwr := { g.pwr with
      watts := x.watts.getD r 0
      forced := if run then at_ fun i => 100 * (s.grp (16 * r + i)).limit else ⟨0, 0, 0⟩
      gust := if run && decide (g.pwr.gustAt ≠ []) then at_ fun i => g.pwr.gustAt.getD i 0 else ⟨0, 0, 0⟩ } }) s
  .next (partNums.foldl (fun s p => s.updPart p fun y =>
    if y.loaded then { y with powW := meanOf (win.map fun m => m.charge.getD p 0), energy := y.energy + ch.getD p 0 } else y) s)
/-- POWER_CAP_ADJUST: the lull share rises while the 1 ms mean lies above the cap, and otherwise falls or holds; by how much
the spec leaves open (R381). -/
def execPowerCapAdjust (p : Nat) (s : State) : Out :=
  if p < 16 then
    let x := s.part p
    if !x.loaded then .next s
    else
      let (s, v) := s.draw
      let n := if x.powW > 100 * x.powCap then min 255 (x.lullShare + 1 + v % 255) else x.lullShare - v % (x.lullShare + 1)
      .next (s.updPart p fun x => { x with lullShare := n })
  else .fault .noSuchUnit
/-- VCORE_TRIM: a 100 ms window of a region's set point (R377). -/
def execVcoreTrim (r : Nat) (s : State) : Out :=
  if r < 64 then
    let g := s.region r
    if !pwrUp g.pwr.state then .next s
    else
      let n := g.clk.stretchNow - g.pwr.trimBase
      let q := if n = 0 then g.pwr.quiet + 1 else 0
      let v := g.pwr.setpt
      let v' := if n > 64 then min 850 (v + 5) else if q ≥ 10 then min v (max (v - 5) (max 600 (s.vset r - 30))) else v
      .next (s.updRegion r fun g =>
        { g with pwr := { g.pwr with setpt := v', quiet := if q ≥ 10 then 0 else q, trimBase := g.clk.stretchNow
                                     highSince := if v' < 850 then none else g.pwr.highSince } })
  else .fault .noSuchUnit
/-- PATH_RESISTANCE_MEASURE: a group's path resistance in µΩ at an input current in 10 mA above 8 A, corrected to 60 °C and
averaged over 16; 25 % above the baseline sets CRACK and raises class 0x25 once (R389). -/
def execPathResistanceMeasure (g cur uohm : Nat) (s : State) : Out :=
  if g < 1024 then
    if cur ≤ 800 then .next s
    else
      let t := (s.region (g / 16)).thm.logic
      let d : Int := 160000 + 39 * (t - 960)
      let x : Nat := if d ≤ 0 then 0 else ((uohm : Int) * 160000 / d).toNat
      let l := (x :: (s.grp g).meas).take 16
      let s := s.updGrp g fun y => { y with meas := l }
      if l.length < 16 then .next s
      else
        let now := min 0xFFFF (meanOf l)
        let base := s.pathBase g
        let s := s.updGrp g fun y => { y with now := now }
        if 4 * now > 5 * base ∧ !(s.grp g).flagged then
          let s := s.updGrp g fun y => { y with crack := true, flagged := true }
          .next (s.raise (s.clusterEv g 0x25 (sp [(2, 2, g), (4, 2, now), (6, 2, base)])))
        else .next s
  else .fault .noSuchUnit

/-! ### VCORE record (R388) -/

/-- VCORE_DIGITISE: the 16 droop sensors of a region sample VCORE, in mV; the record keeps the lowest. -/
def execVcoreDigitise (r : Nat) (mv : List Nat) (s : State) : Out :=
  if r < 64 then
    if (s.region r).pwr.state = 0 then .next s
    else
      let v := fun i => min 1023 (mv.getD i 1023)
      let i := (List.range 16).foldl (fun i j => if v j < v i then j else i) 0
      .next (s.updRegion r fun g =>
        let w := { g.pwr with vcore := v i, vcoreCl := i }
        { g with pwr := if v i < w.vmin then { w with vmin := v i, vminCl := i, vminAt := s.clk.wtime } else w })
  else .fault .noSuchUnit
/-- Write RGN_PWR_VMIN of region r: CLR restarts the record from the present VCORE. -/
def State.writeVmin (r : Nat) (_ : Session) (v : Word) (s : State) : State × Nat :=
  if s.snapped r then (s, stNotYet)
  else if v.getLsbD 31 then
    (s.updRegion r fun g => { g with pwr := { g.pwr with vmin := g.pwr.vcore, vminCl := g.pwr.vcoreCl, vminAt := s.clk.wtime } }, stOk)
  else (s, stOk)
/-- VMIN_CLEAR: a write of RGN_PWR_VMIN with CLR 1. -/
def execVminClear (m : Msg) (r : Nat) (s : State) : Out :=
  if r < 64 then s.onRegWrite m (0x100C04 + 0x10000 * r) fun h s => s.writeVmin r h 0x80000000 else .fault .noSuchUnit

/-! ### Switching off for heat, and standby regions (R386, R387) -/

/-- Cycle counts and damage fractions go to the spool with the event records (R404). -/
def State.saveLife (s : State) : State :=
  if !s.persistOk then s
  else { s with thm := { s.thm with saved := (List.range 64).foldl (fun t r =>
    tset t ([0, 0, 0, 0], 0) r ((s.region r).thm.cyc, (s.region r).thm.life)) s.thm.saved } }
/-- The pairing that protects region r of partition p, with its standby region powered and usable (R387). -/
def State.pairingFor (s : State) (p r : Nat) : Option Nat :=
  let x := s.part p
  if !x.policy 2 ∨ x.alt ≠ 0 then none
  else (List.range x.pairs.length).find? fun k => match x.pairs[k]? with
    | some (a, b) => decide (a = r) && pwrUp (s.region b).pwr.state && !(s.region b).agt.unusable && !(s.region b).thm.stopping
    | none => false
/-- After region r of partition p has left service: a standby region takes it over, or a remapped partition returns, where
that gives it regions that are all powered. -/
def State.remapAfter (s : State) (p r : Nat) : State :=
  let x := s.part p
  if x.state ≠ .ready then s
  else match s.pairingFor p r with
    | some k =>
      let s := s.remapTo p (k + 1)
      if (s.partRegions p).all fun q => pwrUp (s.region q).pwr.state then s.releasePart p else s
    | none =>
      if x.alt ≠ 0 ∧ ((x.pairs[x.alt - 1]?).map (·.2)) = some r then s.standbyBack p else s
/-- A region restarts once it is cool, unless it is unusable (R401). -/
def State.coolRestart (s : State) (r : Nat) : State :=
  let g := s.region r
  if g.thm.off ∧ g.thm.coolN ≥ 3 ∧ !g.agt.unusable then s.askPower r else s
/-- REGION_SWITCH_OFF: steps 2 to 5 of R386 for a region ordered off for heat, once no step of its partition is in flight, no
repair copy runs and its hosted switch, taken out of service first, has drained and is dark (R180). A region kept for the last switch
of its pair is held instead (R181). -/
def execRegionSwitchOff (r : Nat) (s : State) : Out :=
  if r < 64 then
    let g := s.region r
    let busy : Bool := match g.part with
      | some p => decide ((s.part p).phase = RunPhase.running) || decide ((s.part p).held = 3) || decide ((s.part p).held = 4) || ((s.part p).repair.map fun q => decide (q.stage = 1)).getD false
      | none => false
    let service := match hostedBy r with
      | some h => if s.swUp h && !s.swUp (pairOf h) then 3 else tget s.tree.hosts 0 h
      | none => 2
    if !g.thm.hot ∨ g.thm.off ∨ !pwrUp g.pwr.state ∨ busy then .next s
    else if g.thm.stopping ∧ service = 3 then
      .next (s.updRegion r fun g => { g with thm := { g.thm with stopping := false } })
    else if !g.thm.stopping then
      match g.part with
      | some p => if (s.part p).state = PartState.ready ∧ (s.part p).held = 0 then .next (s.holdPart p 2) else .next s
      | none => .next s
    else if service = 0 then .next (((hostedBy r).map s.switchOut).getD s)
    else if service = 1 then .next s
    else
      let s := match g.part with
        | some p => if (s.part p).state = PartState.ready ∧ (s.part p).held = 0 then s.holdPart p 2 else s
        | none => s
      let s := s.setRet r true
      let s := ((s.stopClock r).setPwr r 1).setSeams
      let s := s.updRegion r fun g => { g with thm := { g.thm with stopping := false, off := true } }
      let s := s.raise (s.regionEv r 0x29 (sp [(0, 1, 1), (4, 2, inField 16 g.thm.logic)]))
      let s := s.checkpoint.saveLife
      let s := match g.part with
        | some p => s.remapAfter p r
        | none => s
      .next (s.coolRestart r)
  else .fault .noSuchUnit
/-- Write PWR_P_CTL of partition p: RETURN orders the way back from the standby region, at the next step boundary (R387). -/
def State.writePwrCtl (p : Nat) (_ : Session) (v : Word) (s : State) : State × Nat :=
  if v.getLsbD 8 ∧ (s.part p).alt ≠ 0 then
    let s := s.updPart p fun x => { x with returnReq := true }
    (if (s.part p).phase = .none ∧ (s.part p).state = .ready ∧ (s.part p).repair.isNone then s.standbyBack p else s, stOk)
  else (s, stOk)
/-- STANDBY_RETURN: a write of PWR_P_CTL with RETURN 1. -/
def execStandbyReturn (m : Msg) (p : Nat) (s : State) : Out :=
  if p < 16 then s.onRegWrite m (0x31004 + 16 * p) fun h s => s.writePwrCtl p h 0x100 else .fault .noSuchUnit

end Sys2Proof.Machine
end

