-- ==== Sys2Proof/Machine/ThermalFam.lean ====
section
/-!
DEFINITION. Sweeps, thermal actions, cooling conditions and thermal life (R394 to R405). Temperatures in 1/16 °C.
-/
namespace Sys2Proof.Machine

/-! ### Readings (R396) -/

/-- Lattice neighbours of a region. -/
def nearRegions (r : Nat) : List Nat :=
  (if r < 8 then [] else [r - 8]) ++ (if r % 8 = 7 then [] else [r + 1]) ++ (if r ≥ 56 then [] else [r + 8]) ++ (if r % 8 = 0 then [] else [r - 1])
/-- A reading that a sensor in order can give: −40 °C to 150 °C. -/
def inOrder (v : Option Int) : Bool := match v with
  | some x => decide (-640 ≤ x) && decide (x ≤ 2400)
  | none => false
/-- The verdict on one diode of a sweep. -/
structure Verdict where
  eff    : Int
  dis    : Bool
  disN   : Nat
  broken : Bool
  ref    : Int      -- the neighbour compared with
  deriving DecidableEq, Repr
/-- Largest and smallest of a list. -/
def maxOf (l : List Int) (d : Int) : Int := l.foldl max (l.headD d)
def minOf (l : List Int) (d : Int) : Int := l.foldl min (l.headD d)
/-- Judge a diode (R396): `read` the sweep's readings by region, `bad` the diodes BROKEN, `floor` its kind's floor. -/
def State.judge (s : State) (read : List (Option Int)) (bad : Nat → Bool) (floor : Int) (r disN : Nat) : Verdict :=
  let v := read.getD r none
  let value := fun q => (read.getD q none).getD 0
  let ok := fun q => !bad q && inOrder (read.getD q none)
  let same := fun q => decide (((s.region q).pwr.state = 3) = ((s.region r).pwr.state = 3))
  let near := ((nearRegions r).filter fun q => ok q && same q).map value
  let any := ((nearRegions r).filter ok).map value
  let work := if near ≠ [] then near else any
  let x := v.getD 0
  let hi := decide (near ≠ []) && decide (x > maxOf near 0 + 192)
  let lo := decide (near ≠ []) && decide (x < minOf near 0 - 192)
  let n := if hi || lo then disN + 1 else 0
  if bad r || !inOrder v || decide (n ≥ 100) then
    ⟨if work = [] then floor else max (maxOf work 0 + 192) floor, false, 0, true, maxOf work 0⟩
  else ⟨if hi || lo then max x floor else x, hi || lo, n, false, if lo then minOf near 0 else maxOf near 0⟩
/-- Class 0x2B: 0 disagreement or 1 BROKEN, sensor, reading, reference. -/
def sensorSpec (broken : Bool) (sensor : Nat) (v : Option Int) (ref : Int) : Fields :=
  sp [(0, 1, broken.toNat), (1, 1, sensor), (4, 2, inField 16 (v.getD 0)), (6, 2, inField 16 ref)]
/-- A diode of region r takes its verdict: events on the first disagreement and when BROKEN, the latter with a slub. -/
def State.noteDiode (s : State) (r sensor : Nat) (was wasBroken : Bool) (v : Option Int) (x : Verdict) : State :=
  if x.broken && !wasBroken then
    (s.raise (s.regionEv r 0x2B (sensorSpec true sensor v x.ref))).addSlub (mkSlub 7 r 0xFF 0xFF 2 sensor 0 s.clk.wtime)
  else if x.dis && !was then s.raise (s.regionEv r 0x2B (sensorSpec false sensor v x.ref))
  else s
/-- Effective temperatures of every region after a sweep. -/
def State.takeDiodes (s : State) (x : Sweep) : State :=
  let z := s
  (List.range 64).foldl (fun s r =>
    let t := (s.region r).thm
    let l := z.judge x.logic (fun q => (z.region q).thm.lBroken) 1600 r t.lDisN
    let d := z.judge x.dram (fun q => (z.region q).thm.dBroken) 1360 r t.dDisN
    let s := (s.noteDiode r 0 t.lDis t.lBroken (x.logic.getD r none) l).noteDiode r 1 t.dDis t.dBroken (x.dram.getD r none) d
    s.updRegion r fun g => { g with thm := { g.thm with
      logic := l.eff, lDis := l.dis, lDisN := l.disN, lBroken := l.broken, dram := d.eff, dDis := d.dis, dDisN := d.disN, dBroken := d.broken } }) s
/-- Thermistors: disagreement with the partner (2 K, plates 10 K), BROKEN ones, and the values every rule uses. -/
def State.takeTherms (s : State) (x : Sweep) : State :=
  (List.range 4).foldl (fun s k =>
    let a := 2 * k
    let b := 2 * k + 1
    let va := x.therm.getD a none
    let vb := x.therm.getD b none
    let t := s.thm
    let ba := t.tBroken.getLsbD a || !inOrder va
    let bb := t.tBroken.getLsbD b || !inOrder vb
    let dis := !ba && !bb && decide ((va.getD 0 - vb.getD 0).natAbs > if k < 2 then 32 else 160)
    let n := if dis then tget t.tDis 0 a + 1 else 0
    let first := dis && decide (tget t.tDis 0 a = 0)
    let out := decide (n ≥ 100)
    let ba' := ba || out
    let bb' := bb || out
    let ea := if dis then max (va.getD 0) (vb.getD 0) else if ba' then vb.getD 0 else va.getD 0
    let eb := if dis then max (va.getD 0) (vb.getD 0) else if bb' then va.getD 0 else vb.getD 0
    let both := ba' && bb'
    let s := if first then s.raise (s.edgeEv 0x2B (sensorSpec false (0x10 + a) va (vb.getD 0))) else s
    let mark := fun (s : State) (i : Nat) (v ref : Option Int) =>
      (s.raise (s.edgeEv 0x2B (sensorSpec true (0x10 + i) v (ref.getD 0)))).addSlub (mkSlub 7 0xFF 0xFF 0xFF 2 (0x10 + i) 0 s.clk.wtime)
    let s := if ba' && !t.tBroken.getLsbD a then mark s a va vb else s
    let s := if bb' && !t.tBroken.getLsbD b then mark s b vb va else s
    { s with thm := { s.thm with
      tBroken := s.thm.tBroken ||| BitVec.ofNat 8 (ba'.toNat * 2 ^ a + bb'.toNat * 2 ^ b)
      tDis := tset (tset s.thm.tDis 0 a n) 0 b n
      therm := if both then s.thm.therm else (s.thm.therm.set a ea).set b eb } }) s

/-! ### Coolant (R402, R403) -/

/-- Both thermistors of pair k are BROKEN. -/
def Thermal.pairGone (t : Thermal) (k : Nat) : Bool := t.tBroken.getLsbD (2 * k) && t.tBroken.getLsbD (2 * k + 1)
/-- Inferred flow in 0.01 L/min, where it is published (R402). -/
def State.inferFlow (s : State) : Option Nat :=
  let t := s.thm
  let v := fun i => t.therm.getD i 0
  let d := v 2 + v 3 - v 0 - v 1
  if s.pwr.pin < 8000 ∨ d < 16 ∨ t.pairGone 0 ∨ t.pairGone 1 then none
  else some ((s.pwr.pin - 300) * 192000 / ((if t.glycol then 3850 else 4150) * d.toNat))
/-- Verdict on a cooling condition: none where it is not judged (R396, R402). -/
def State.coolNow (s : State) (flow : Option Nat) (i : Nat) : Option Bool :=
  let t := s.thm
  match i with
  | 0 => if t.pairGone 0 then none else some (decide (t.inlet > 640))
  | 1 => if t.pairGone 0 then none else some (decide (t.inlet < 240))
  | 2 => flow.map fun f => decide (f < 5400)
  | 3 => if t.pairGone 0 ∨ t.pairGone 2 ∨ t.pairGone 3 then none
      else some ((List.range 4).any fun j => decide (t.therm.getD (4 + j) 0 > t.inlet + 400))
  | _ => some (decide (t.tBroken ≠ 0))
/-- A sweep's cooling values, and since when each condition has held or been clear; time in which one is not judged does not
count. -/
def State.takeCooling (s : State) : State :=
  let v := fun i => s.thm.therm.getD i 0
  let s := { s with thm := { s.thm with inlet := (v 0 + v 1) / 2, outlet := (v 2 + v 3) / 2 } }
  let flow := s.inferFlow
  let now := s.clk.wtime
  let gap := now - s.thm.coolAt
  let shift := fun (t : Table Nat) (i : Nat) => tupd t 0 i fun x => if x = 0 then 0 else x + gap
  let s := (List.range 5).foldl (fun s i =>
    let t := s.thm
    match s.coolNow flow i with
    | none => { s with thm := { t with coolSet := shift t.coolSet i, coolClr := shift t.coolClr i } }
    | some true => { s with thm := { t with coolSet := tupd t.coolSet 0 i fun x => if x = 0 then now + 1 else x, coolClr := tset t.coolClr 0 i 0 } }
    | some false => { s with thm := { t with coolClr := tupd t.coolClr 0 i fun x => if x = 0 then now + 1 else x, coolSet := tset t.coolSet 0 i 0 } }) s
  { s with thm := { s.thm with flow := min 0xFFFF (flow.getD 0), coolAt := now } }
/-- A bit of THM_COOL_STAT changes: class 0x2D and a record to every subscriber. -/
def State.coolBit (s : State) (i : Nat) (on_ : Bool) : State :=
  let m : BitVec 5 := BitVec.ofNat 5 (2 ^ i)
  let s := { s with thm := { s.thm with cool := if on_ then s.thm.cool ||| m else s.thm.cool &&& ~~~m } }
  (s.raise (s.edgeEv 0x2D (sp [(0, 1, i), (1, 1, (!on_).toNat), (4, 2, inField 16 s.thm.inlet), (6, 2, inField 16 s.thm.outlet), (8, 2, s.thm.flow)]))).pushTel 6
/-- COOLING_CONDITION_SET: condition i has held for 10 s. -/
def execCoolingConditionSet (i : Nat) (s : State) : Out :=
  if i < 5 then
    let t := tget s.thm.coolSet 0 i
    if s.thm.cool.getLsbD i ∨ t = 0 ∨ s.clk.wtime + 1 < t + secs 10 then .next s else .next (s.coolBit i true)
  else .fault .noSuchUnit
/-- COOLING_CONDITION_CLEAR: condition i has been clear for 60 s. -/
def execCoolingConditionClear (i : Nat) (s : State) : Out :=
  if i < 5 then
    let t := tget s.thm.coolClr 0 i
    if !s.thm.cool.getLsbD i ∨ t = 0 ∨ s.clk.wtime + 1 < t + secs 60 then .next s else .next (s.coolBit i false)
  else .fault .noSuchUnit

/-! ### Thermal cycles (R404) -/

/-- Bin of a swing: 20, 30, 50 and 80 K. -/
def cycleBin (x : Nat) : Option Nat := if x ≥ 1280 then some 3 else if x ≥ 800 then some 2 else if x ≥ 480 then some 1 else if x ≥ 320 then some 0 else none
/-- Damage of half a cycle of a bin, (ΔT ÷ 60 K)^2.35 ÷ 40,000 in 2⁻⁴⁰. -/
def halfDamage (b : Nat) : Nat := [5391621, 17908694, 54043799, 91302863].getD b 0
/-- Count n half cycles of a swing. -/
def RTherm.count (t : RTherm) (swing n : Nat) : RTherm := match cycleBin swing with
  | none => t
  | some b => { t with cyc := t.cyc.set b (min 255 (t.cyc.getD b 0 + n)), life := t.life + n * halfDamage b }
/-- Rainflow counting on the residue, newest first: a range at least as large as the one before it closes that one, as a
whole cycle, or as a half where it began the record. -/
def RTherm.rainflow (t : RTherm) : Nat → RTherm
  | 0 => t
  | n + 1 => match t.rain with
    | c :: b :: a :: rest =>
      let y := (b - a).natAbs
      if (c - b).natAbs < y then t
      else if rest = [] then ({ t with rain := [c, b] }.count y 1).rainflow n
      else ({ t with rain := c :: rest }.count y 2).rainflow n
    | _ => t
/-- A sweep value enters the record. -/
def RTherm.sample (t : RTherm) (v : Int) : RTherm :=
  let rain := match t.rain with
    | [] => [v]
    | [a] => if v = a then [a] else [v, a]
    | b :: a :: rest => if v = b then b :: a :: rest else if (a < b ∧ b < v) ∨ (v < b ∧ b < a) then v :: a :: rest else v :: b :: a :: rest
  { t with rain := rain }.rainflow rain.length
/-- Every region's logic junction is counted; D past 0.8 raises class 0x2E once. -/
def State.countCycles (s : State) : State :=
  (List.range 64).foldl (fun s r =>
    let s := s.updRegion r fun g => { g with thm := g.thm.sample g.thm.logic }
    let t := (s.region r).thm
    if t.life > 879609302220 ∧ !t.lifeEv then
      (s.updRegion r fun g => { g with thm := { g.thm with lifeEv := true } }).raise (s.regionEv r 0x2E (sp [(4, 4, t.life / 65536)]))
    else s) s
/-- THERMAL_LIFE_PERSIST: every hour. -/
def execThermalLifePersist (s : State) : Out := .next s.saveLife

/-! ### Actions (R397 to R401) -/

/-- A junction at or above stop threshold i of `stopThresholds`: class 0x28 as it is crossed (R397, R406). -/
def State.crossed (s : State) (r i : Nat) (t : Int) : State :=
  let (j, deg) := stopThresholds.getD i (0, 0)
  if t ≥ 16 * (deg : Int) ∧ !(s.region r).thm.force.getLsbD i then
    (s.updRegion r fun g => { g with thm := { g.thm with force := g.thm.force ||| BitVec.ofNat 4 (2 ^ i) } }).thresholdEv r j deg 0 t
  else s
/-- Order region r off for heat (R399); the last switch of its pair is kept and its partition held instead (R181). -/
def State.orderStop (s : State) (r : Nat) (t : Int) : State :=
  if !pwrUp (s.region r).pwr.state ∨ (s.region r).thm.hot then s
  else
    let leaving := fun h => !s.swUp h || (s.region (hostRegions.getD h 0)).thm.stopping
    let keep := match hostedBy r with
      | some h => s.swUp h && leaving (pairOf h)
      | none => false
    let s := s.updRegion r fun g => { g with thm := { g.thm with hot := true, stopping := !keep, coolN := 0 } }
    s.raise (s.regionEv r 0x29 (sp [(0, 1, if keep then 3 else 0), (4, 2, inField 16 t)]))
/-- Packets of VC0 and VC1, sums and barriers that are lost with a switch, by partition: what is in it, and the rest of a packet that
has begun to cross into it (R400). -/
def State.lostWith (s : State) (sw : Nat) : List Nat :=
  let t := s.tree
  ((t.flits.filter fun f => decide (f.vc ≤ 1) && (decide (f.from_ = sw) || (decide (f.sw = sw) && t.entering f))).map (·.part)
    ++ (t.paths.filter fun x => decide (x.sw = sw) && decide (x.head.vc ≤ 1)).map (·.head.part)
    ++ (t.busy.filter fun b => decide (b.sw = sw) && decide (b.vc ≤ 1)).map (·.part)
    ++ (t.reds.filter fun r => decide (r.sw = sw)).map (·.part) ++ (t.bars.filter fun b => decide (b.sw = sw)).map (·.part)
    ++ (t.barMsgs.filter fun b => decide (b.from_ = sw)).map (·.part)).eraseDups
/-- The tree without what is lost with a switch. -/
def Tree.cut (t : Tree) (sw : Nat) : Tree :=
  { t with flits := t.flits.filter fun f => decide (f.from_ ≠ sw) && !(decide (f.sw = sw) && t.entering f)
           paths := (t.paths.filter fun x => decide (x.sw ≠ sw)).map fun x =>
             if t.busy.any fun b => decide (b.from_ = x.sw) && decide (b.sw = sw) && decide (b.pid = x.head.pid) then
               { x with outs := x.outs.filter (· ≠ sw) } else x
           busy := t.busy.filter fun b => decide (b.sw ≠ sw) && decide (b.from_ ≠ sw)
           reds := t.reds.filter fun r => decide (r.sw ≠ sw), bars := t.bars.filter fun b => decide (b.sw ≠ sw)
           barMsgs := t.barMsgs.filter fun b => decide (b.from_ ≠ sw) }
/-- Switch h is lost with everything in it, and its children take its pair at once (R400): steps that lose a VC0 or VC1 flit replay,
and partitions whose pair is gone are held. -/
def State.switchCut (s : State) (h : Nat) : State :=
  let hit := s.lostWith (1088 + h)
  let s := s.updTree fun t => t.cut (1088 + h)
  let s := if s.swUp (pairOf h) then s.divert h else s
  let s := (hit.foldl (fun s p => s.notePartFault p 0x2A) s).hostTo h true
  if s.swUp (pairOf h) then s
  else partNums.foldl (fun s p =>
    if (s.part p).state = PartState.ready ∧ s.needsPair p h ∧ (s.part p).held = 0 then
      (if (s.part p).phase = RunPhase.none then s else s.dropStep p).holdPart p 2
    else s) s
/-- Code of the switch a region hosts, as HOST of RGN_TRE_CFG. -/
def hostCode (r : Nat) : Nat := match hostedBy r with
  | none => 0
  | some h => if h ≥ 8 then 3 else 1 + h % 2
/-- The partition of a region that is cut: its step is abandoned and it is held (R400 step 1). -/
def State.cutPart (s : State) (r : Nat) : State :=
  match (s.region r).part with
  | none => s
  | some p =>
    if (s.part p).state ≠ PartState.ready then s
    else
      let s := if (s.part p).phase = RunPhase.none then s else s.dropStep p
      if (s.part p).held = 0 then s.holdPart p 2 else s.updPart p fun x => { x with held := if x.held ≥ 3 then 2 else x.held }
/-- A cut enters the region's record; the third within 24 h makes it unusable (R401). -/
def State.noteCut (s : State) (r : Nat) : State :=
  let now := s.clk.wtime
  let s := s.updRegion r fun g => { g with thm := { g.thm with
    hot := true, off := true, stopping := false, coolN := 0, cuts := (now :: g.thm.cuts).take 3 } }
  let c := (s.region r).thm.cuts
  if c.length ≥ 3 ∧ now ≤ c.getLastD 0 + secs 86400 then s.regionUnusable r 12 else s
/-- The switch a cut region hosts (R400 step 2). -/
def State.cutSwitch (s : State) (r : Nat) : State := match hostedBy r with
  | some h => s.switchCut h
  | none => s
/-- Hard cut of region r (R400): OFF at once; the step in flight is abandoned and the partition held; a power-on in progress
fails with cause 7. -/
def State.hardCut (s : State) (r : Nat) (t : Int) : State :=
  if (s.region r).pwr.state = 0 then s
  else
    let s := ((s.powerOnFails r 7).cutPart r).cutSwitch r
    let s := (((s.stopClock r).setPwr r 0).regionLost r).setSeams
    (s.raise (s.regionEv r 0x2A (sp [(4, 2, inField 16 t), (6, 1, hostCode r)]))).noteCut r
/-- Refresh mode by DRAM temperature (R127); mode 2 stands until a stopped region restarts (R397). -/
def refreshMode (old : Nat) (hot : Bool) (t : Int) : Nat :=
  if t ≥ 1520 ∨ (hot ∧ old = 2) then 2 else if t ≥ 1360 then 1 else if t < 1280 then 0 else min old 1
/-- DRAM rules for region r (R127, R397). -/
def State.dramRules (s : State) (r : Nat) : State :=
  let g := s.region r
  let t := g.thm.dram
  let m := refreshMode g.thm.refresh g.thm.hot t
  let s := if m = g.thm.refresh then s
    else
      let s := s.updRegion r fun g => { g with thm := { g.thm with refresh := m } }
      s.raise (s.regionEv r 0x13 (sp [(0, 1, g.thm.refresh), (1, 1, m), (4, 2, inField 16 t)]))
  let s := if g.thm.refresh = 0 ∧ m ≠ 0 then s.thresholdEv r 1 85 0 t else if g.thm.refresh ≠ 0 ∧ m = 0 then s.thresholdEv r 1 85 1 t else s
  let s := (s.crossed r 2 t).crossed r 3 t
  let s := if t ≥ 1520 ∧ !g.thm.hot ∧ pwrUp g.pwr.state then
      (s.raise (s.regionEv r 0x2C (sp [(0, 1, 0), (4, 2, inField 16 t)]))).orderStop r t
    else s
  if t ≥ 1680 ∧ !g.agt.unusable then
    let s := (List.range 1152).foldl (fun s i => s.setVault (1152 * r + i) { s.vault (1152 * r + i) with lost := true }) s
    let s := s.raise (s.regionEv r 0x2C (sp [(0, 1, 1), (4, 2, inField 16 t)]))
    s.regionUnusable r 14
  else s
/-- Logic rules for region r (R397, R399, R400). -/
def State.logicRules (s : State) (r : Nat) : State :=
  let g := s.region r
  let t := g.thm.logic
  let set := fun (s : State) (w l : Bool) => s.updRegion r fun g => { g with thm := { g.thm with warn := w, lulls := l } }
  let w := if t ≥ 1520 then true else if t < 1472 then false else g.thm.warn
  let s := if w = g.thm.warn then s else (set s w g.thm.lulls).thresholdEv r 0 95 (!w).toNat t
  let s := if t ≥ 1600 ∧ !g.thm.lulls ∧ g.part.isSome then (set s w true).thresholdEv r 0 100 0 t
    else if g.thm.lulls ∧ g.part.isNone then (set s w false).thresholdEv r 0 100 1 t
    else s
  let s := (s.crossed r 0 t).crossed r 1 t
  if t ≥ 1888 then s.hardCut r t
  else if t ≥ 1760 ∧ !g.thm.hot ∧ pwrUp g.pwr.state then s.orderStop r t
  else s
/-- Thermal share of partition p (R398), the region that takes its lull, and the release of the 100 °C action. -/
def State.thermalShare (s : State) (p : Nat) : State :=
  let x := s.part p
  let rs := s.partRegions p
  if !x.loaded ∨ rs = [] then { s with thm := { s.thm with hotRgn := tset s.thm.hotRgn 64 p 64 } }
  else
    let temp := fun r => (s.region r).thm.logic
    let hot := rs.foldl (fun a r => if temp a < temp r then r else a) (rs.headD 0)
    let d := if temp hot ≥ 1600 then min 24 (x.thmShare + 1) else if rs.all fun r => decide (temp r < 1568) then x.thmShare - 1 else x.thmShare
    let s := s.updPart p fun x => { x with thmShare := d }
    let s := { s with thm := { s.thm with hotRgn := tset s.thm.hotRgn 64 p (if d = 0 then 64 else hot) } }
    if d ≠ 0 then s
    else rs.foldl (fun s r =>
      if (s.region r).thm.lulls then
        (s.updRegion r fun g => { g with thm := { g.thm with lulls := false } }).thresholdEv r 0 100 1 (s.region r).thm.logic
      else s) s
/-- Restarts (R401): three cool sweeps in a row bring a region back, or end the hold of one that was kept. -/
def State.restartRules (s : State) (r : Nat) : State :=
  let t := (s.region r).thm
  if !t.hot then s
  else
    let n := if t.logic ≤ 1440 ∧ t.dram ≤ 1280 then t.coolN + 1 else 0
    let s := s.updRegion r fun g => { g with thm := { g.thm with coolN := n } }
    if n < 3 then s
    else if t.off then s.coolRestart r
    else if t.stopping then s
    else
      let s := (s.stopsOver r).updRegion r fun g => { g with thm := { g.thm with hot := false, coolN := 0 } }
      (s.raise (s.regionEv r 0x29 (sp [(0, 1, 2), (4, 2, inField 16 t.logic)]))).endHeatHolds

/-! ### Sweeps (R395, R399) -/

/-- SWEEP_START: the steward starts a sweep every PERIOD, at most 1 ms apart with a junction warm. -/
def execSweepStart (s : State) : Out :=
  if !s.edgeUp ∨ s.thm.sweeping ∨ s.clk.wtime < s.thm.nextSweep then .next s
  else
    let warm := (List.range 64).any fun r => decide ((s.region r).thm.logic ≥ 1520) || decide ((s.region r).thm.dram ≥ 1360)
    let n := if warm then min s.thm.period 10 else s.thm.period
    .next { s with thm := { s.thm with sweeping := true, sweepAt := s.clk.wtime, nextSweep := s.clk.wtime + usecs (100 * n) } }
/-- A sweep is complete: the hottest region is noted. -/
def State.sweepDone (s : State) : State :=
  let hot := (List.range 64).foldl (fun a r => if (s.region a).thm.logic < (s.region r).thm.logic then r else a) 0
  { s with thm := { s.thm with sweeping := false, sweeps := s.thm.sweeps + 1, hotRegion := hot, hotTemp := (s.region hot).thm.logic } }
/-- The steward acts on a sweep (R397). In Doldrums mode only DRAM and coolant rules act (R405); a start meets cause 9
(R439). -/
def State.sweepActs (s : State) : State :=
  let tooHot := (List.range 64).any fun r => decide ((s.region r).thm.logic ≥ 1760) || decide ((s.region r).thm.dram ≥ 1520)
  if s.boot.start = 1 ∧ tooHot then s.startFails 9
  else
    let s := (List.range 64).foldl State.dramRules s
    if s.doldrums then s
    else
      let s := (List.range 64).foldl State.logicRules s
      (List.range 64).foldl State.restartRules (partNums.foldl State.thermalShare s)
/-- SWEEP_END: 400 µs after it began, the sweep's readings take effect (R395 to R404). -/
def execSweepEnd (x : Sweep) (s : State) : Out :=
  if !s.thm.sweeping ∨ s.clk.wtime < s.thm.sweepAt + usecs 400 then .next s
  else .next (((((s.takeDiodes x).takeTherms x).takeCooling).countCycles).sweepDone).sweepActs
/-- STOP_CONVERSION: the logic diode of a region being stopped, converted between sweeps; at 118 °C the stop is a hard cut. The
reading of a BROKEN diode is ignored (R396). -/
def execStopConversion (r : Nat) (t : Option Int) (s : State) : Out :=
  if r < 64 then
    match t with
    | some v =>
      if (s.region r).thm.stopping ∧ !(s.region r).thm.lBroken ∧ v ≥ 1888 ∧ v ≤ 2400 then .next ((s.crossed r 1 v).hardCut r v)
      else .next s
    | none => .next s
  else .fault .noSuchUnit
/-- Write THM_CFG (R407): PERIOD from 5 to 1,000. -/
def State.writeThmCfg (_ : Session) (v : Word) (s : State) : State × Nat :=
  let n := v.toNat % 65536
  if n < 5 ∨ n > 1000 then (s, stNoRoom)
  else ({ s with thm := { s.thm with period := n, glycol := v.getLsbD 16 } }, stOk)

end Sys2Proof.Machine
end

