-- ==== Sys2Proof/Machine/VaultSvc.lean ====
section
/-!
DEFINITION. What the vault controllers do by themselves: refresh, scrubbing and their reports (R127, R132 to R134).
-/
namespace Sys2Proof.Machine

/-- VVAULT is present and vclk runs: the wafer is starting or RUNNING, its vaults not in self-refresh (R363, R383, R438). -/
def State.vaultsOn (s : State) : Bool := (decide (s.boot.start = 1) || decide (s.boot.start = 2)) && !s.clk.selfRefresh
/-- VAULT_REFRESH: the next row of every bank of a vault is refreshed, in free bank cycles (R127). Contents stand. -/
def execVaultRefresh (c : Nat) (s : State) : Out :=
  if c < 73728 then
    if !s.vaultsOn then .next s
    else .next (s.setVault c { s.vault c with refreshRow := ((s.vault c).refreshRow + 1) % 512 })
  else .fault .noSuchUnit

/-- A vault that reports itself lost, or failing between steps, is declared (R134, R412). -/
def State.vaultReported (s : State) (c : Nat) : State :=
  let v := s.vault c
  let idle := match s.partOf c with
    | some p => decide ((s.part p).phase = RunPhase.none)
    | none => true
  if v.lost then s.declareDead c 5 true
  else if v.failing && idle then s.declareDead c 6 false else s
/-- A burst queued for write-back is written back corrected (R121, R132). -/
def Vault.writeBack (v : Vault) (i : Nat) : Vault :=
  let v := { v with wb := v.wb.filter (· ≠ i) }
  match v.decode i with
  | .corrected errs => v.store i (applyErrs (v.burst i) errs) (List.replicate 8 0)
  | _ => v
/-- Ticks between two scrub reads of a vault at a period in hours: every burst once a period, at equal distances (R132; DESIGN
CHOICE, log 214). -/
def scrubTicks (period : Nat) : Nat := period * (3600 * 175000000) / 524288
/-- The vault of core c has ended a scrub pass: PASSES rises once every vault of the cluster has (R137). -/
def State.scrubPass (s : State) (c : Nat) : State :=
  let n := (s.cluster (c / 72)).scrubbed
  if (List.range 72).all fun i => decide (n < (s.vault (72 * (c / 72) + i)).passes) then
    s.updCluster (c / 72) fun u =>
      { u with scrubbed := n + 1, scrub := BitVec.ofNat 32 (u.scrub.toNat % 65536 + 65536 * ((u.scrub.toNat / 65536 + 1) % 65536)) }
  else s
/-- VAULT_SCRUB_READ: with PERIOD not 0 and the last read a burst's share of the period ago, the oldest queued write-back of a
vault is made and the next burst read (R132); `fs` are DRAM errors the read meets. An uncorrectable burst is left as it is. -/
def execVaultScrubRead (c : Nat) (fs : List SymFlip) (s : State) : Out :=
  if c < 73728 then
    let period := (s.cluster (c / 72)).scrub.toNat % 256
    if !s.vaultsOn ∨ period = 0 ∨ s.clk.wtime < (s.vault c).scrubDue then .next s
    else
      let s := match (s.vault c).wb with
        | [] => s
        | i :: _ => s.setVault c ((s.vault c).writeBack i)
      let i := (s.vault c).scrubAt
      let s := ((s.vaultFlips c fs).vaultRead c i 1 true).1
      let last := decide (i + 1 = 524288)
      let s := s.setVault c { s.vault c with
        scrubAt := (i + 1) % 524288, scrubDue := s.clk.wtime + scrubTicks period, passes := (s.vault c).passes + last.toNat }
      .next ((if last then s.scrubPass c else s).vaultReported c)
  else .fault .noSuchUnit
/-- SECOND_PORT_TIMEOUT: a second port that has not answered its region agent within 1 ms: vault lost (R134). -/
def execSecondPortTimeout (c : Nat) (s : State) : Out :=
  if c < 73728 then
    if !s.vaultsOn then .next s else .next ((s.vaultReport c true).vaultReported c)
  else .fault .noSuchUnit

end Sys2Proof.Machine
end

