-- ==== Sys2Proof/Machine/Registers.lean ====
section
/-!
DEFINITION. REG_READ and REG_WRITE over the whole window (R327, R461), telemetry (R464), quotes and identity (R454).
-/
namespace Sys2Proof.Machine

/-! ### What reading does (R461) -/

/-- Reading clears the RC fields of a partition's serving registers. -/
def Part.clearRc (x : Part) (a : Nat) : Part :=
  let o := a - 0x80000
  if 0x1000 ≤ o ∧ o < 0x1400 then
    match o % 0x40 with
    | 0x20 => { x with tokens := 0 }
    | 0x24 => { x with specAcc := 0, specProp := 0 }
    | 0x28 => { x with stops := 0, narrowed := 0 }
    | _ => x
  else if 0x4000 ≤ o ∧ o < 0x4200 then
    match o % 0x20 with
    | 0x04 => { x with replays := 0 }
    | 0x08 => { x with fallbacks := 0 }
    | _ => x
  else if 0x5000 ≤ o ∧ o < 0x5800 then
    match o % 0x80 with
    | 0x08 => { x with lateCnt := 0 }
    | 0x0C => { x with wdogCnt := 0 }
    | _ => x
  else if 0x6000 ≤ o ∧ o < 0x6400 then
    match o % 0x40 with
    | 0x0C => { x with kvEvict := 0 }
    | 0x10 => { x with kvLost := 0 }
    | 0x18 => { x with kvClamp := 0 }
    | 0x1C => { x with kvZero := 0 }
    | 0x24 => { x with kvDefer := 0 }
    | 0x28 => { x with kvResend := 0 }
    | _ => x
  else if 0x7000 ≤ o ∧ o < 0x7800 then if o % 0x80 = 0x0C then { x with doffCnt := 0 } else x
  else if 0x8000 ≤ o ∧ o < 0x8200 then
    match o % 0x20 with
    | 0x04 => { x with repReruns := 0, repairs := 0 }
    | 0x0C => { x with repMax := 0 }
    | _ => x
  else x
/-- Partition of an SRV address. -/
def srvPart (o : Nat) : Nat :=
  if o < 0x4000 then (o - 0x1000) / 0x40
  else if o < 0x5000 then (o - 0x4000) / 0x20
  else if o < 0x6000 then (o - 0x5000) / 0x80
  else if o < 0x7000 then (o - 0x6000) / 0x40
  else if o < 0x8000 then (o - 0x7000) / 0x80
  else (o - 0x8000) / 0x20
/-- Reading clears the RC counters of a cluster. -/
def Cluster.clearRc (u : Cluster) (o : Nat) : Cluster :=
  match o with
  | 0x104 => { u with satCnt := 0 }
  | 0x108 => { u with bxoCnt := 0 }
  | 0x10C => { u with unfCnt := 0 }
  | 0x114 => { u with busy := 0 }
  | 0x204 => { u with vltCe := 0 }
  | 0x208 => { u with vltUe := 0 }
  | 0x304 => { u with padCe := 0 }
  | 0x308 => { u with padUe := 0 }
  | 0x408 => { u with missCnt := 0 }
  | 0x40C => { u with chkCnt := 0 }
  | 0x410 => { u with latSat := 0 }
  | 0x414 => { u with latFlits := 0 }
  | 0x504 => { u with treFlits := 0 }
  | 0x508 => { u with treChk := 0 }
  | _ => u
/-- Reading clears the RC fields of a region's registers; RGN_CLK_MINK restarts at the present ratio. -/
def Region.clearRc (g : Region) (o : Nat) : Region :=
  let n := g.net
  match o with
  | 0x804 => { g with net := { n with hold := 0 } }
  | 0x808 => { g with net := { n with stalls := tset n.stalls 0 0 0 } }
  | 0x80C => { g with net := { n with stalls := tset n.stalls 0 1 0 } }
  | 0x810 => { g with net := { n with stalls := tset n.stalls 0 2 0 } }
  | 0x814 => { g with net := { n with stalls := tset n.stalls 0 3 0 } }
  | 0x818 => { g with net := { n with maxOcc := [] } }
  | 0x904 => { g with net := { n with upA := 0 } }
  | 0x908 => { g with net := { n with upB := 0 } }
  | 0x90C => { g with net := { n with vc0Max := 0 } }
  | 0x910 => { g with net := { n with hostFlits := 0 } }
  | 0xA00 => { g with net := { n with gateCnt := 0 } }
  | 0xA04 => { g with net := { n with lateCnt := 0 } }
  | 0xB04 => { g with clk := { g.clk with stretch := 0 } }
  | 0xB08 => { g with clk := { g.clk with up := 0, down := 0 } }
  | 0xB0C => { g with clk := { g.clk with minK := if g.clk.k = 0 then 16 else g.clk.k } }
  | 0xC10 => { g with pwr := { g.pwr with lull := 0 } }
  | 0xE00 => { g with agt := { g.agt with hbMiss := 0 } }
  | _ => g
/-- Reading clears the RC fields of a word; a snapshot's are not cleared. -/
def State.clearRc (s : State) (h : Session) (a : Nat) : State :=
  if 0x100000 ≤ a ∧ a < 0x500000 then
    let r := (a - 0x100000) / 0x10000
    let o := a % 0x10000
    if s.snapped r then s
    else if o % 0x1000 < 0x800 then s.updCluster (16 * r + o / 0x1000) fun u => u.clearRc (o % 0x1000)
    else if o < 0x1000 then s.updRegion r fun g => g.clearRc o
    else s
  else if 0x81000 ≤ a ∧ a < 0x89000 then s.updPart (srvPart (a - 0x80000)) fun x => x.clearRc a
  else if 0x31000 ≤ a ∧ a < 0x31100 then
    if a % 16 = 8 then s.updPart ((a - 0x31000) / 16) fun x => { x with powLull := 0 } else s
  else match a with
    | 0x30010 => { s with pwr := { s.pwr with peak := 0 } }
    | 0x30028 => s.updGrp (h.selAt 0x30020 0) fun g => { g with peak := 0 }
    | 0x50064 => { s with eth := { s.eth with retx := 0 } }
    | 0x50068 => { s with eth := { s.eth with drop := 0 } }
    | 0x5006C => { s with eth := { s.eth with fwd := 0 } }
    | 0x60118 => s.updCard 0 fun k => { k with ceCnt := 0 }
    | 0x6011C => s.updCard 0 fun k => { k with ueCnt := 0 }
    | 0x60120 => s.updCard 0 fun k => { k with over_ := 0 }
    | 0x60218 => s.updCard 1 fun k => { k with ceCnt := 0 }
    | 0x6021C => s.updCard 1 fun k => { k with ueCnt := 0 }
    | 0x60220 => s.updCard 1 fun k => { k with over_ := 0 }
    | 0x80054 => s.updTenant (h.selAt 0x80040 0) fun t => { t with used := 0 }
    | _ => s
/-- The HI address a LO read latches, with a session without latches as its source of the present value (R461). -/
def latchOf (a : Nat) : Option Nat :=
  if a = 0x20010 ∨ a = 0x30014 ∨ a = 0x70018 ∨ a = 0x70020 then some (a + 4)
  else if 0x70400 ≤ a ∧ a < 0x70600 ∧ a % 8 = 0 then some (a + 4)
  else if 0x100000 ≤ a ∧ a < 0x500000 ∧ a % 0x10000 = 0xC08 then some (a + 4)
  else none
/-- Read one word for a session: its value, then its RC fields cleared and its HI word latched. -/
def State.readWord (s : State) (ses a : Nat) : State × Word :=
  match s.session ses with
  | none => (s, 0)
  | some h =>
    let w := s.regWord h a
    let s := s.clearRc h a
    match latchOf a with
    | none => (s, w)
    | some b =>
      let hi := s.regWord { h with latch := [] } b
      (s.setSession ses { h with latch := (b, hi) :: h.latch.filter fun x => decide (x.1 ≠ b) }, w)
/-- Read n words in ascending order. -/
def State.readWords (s : State) (ses a : Nat) : Nat → State × List Word
  | 0 => (s, [])
  | n + 1 =>
    let (s, w) := s.readWord ses a
    let (s, ws) := s.readWords ses (a + 4) n
    (s, w :: ws)
/-- REG_READ: COUNT words from ADDR in ascending order (R327). -/
def execRegRead (m : Msg) (addr count : Nat) (s : State) : Out :=
  s.onMsg m 1 1 8 (decide (1 ≤ count) && decide (count ≤ 256) && decide (addr % 4 = 0)) false fun _ s =>
    let (s, ws) := s.readWords m.ses addr count
    (s, some (stOk, beBytes 4 addr ++ beBytes 2 count ++ beBytes 2 0 ++ ws.flatMap fun w => beBytes 4 w.toNat))

/-! ### Writing (R461) -/

/-- A session's selector or staged word at an address. -/
def State.setSel (s : State) (ses a v : Nat) : State :=
  match s.session ses with
  | none => s
  | some h => s.setSession ses { h with sel := tset h.sel (2 ^ 32) a v }
/-- Write-one-to-clear. -/
def w1c (x v mask : Word) : Word := x &&& ~~~(v &&& mask)
/-- Write a cluster register (R46, R137, R162, R184). -/
def Cluster.write (u : Cluster) (o : Nat) (v : Word) : Cluster :=
  match o with
  | 0x100 => { u with engStat := w1c u.engStat v 0x1F }
  | 0x110 => { u with gate := v &&& 0x1F }
  | 0x200 => { u with vltStat := w1c u.vltStat v 0x3F }
  | 0x210 => { u with scrub := (u.scrub &&& 0xFFFF0000) ||| (v &&& 0xFF) }
  | 0x300 => { u with padStat := w1c u.padStat v 0xF }
  | 0x404 => { u with latStat := w1c u.latStat v 0x1F }
  | 0x500 => { u with treStat := w1c u.treStat v 0xF }
  | _ => u
/-- Write a word of a region block. -/
def State.writeRegion (a : Nat) (h : Session) (v : Word) (s : State) : State × Nat :=
  let r := (a - 0x100000) / 0x10000
  let o := a % 0x10000
  if s.snapped r then (s, stNotYet)
  else if o % 0x1000 < 0x800 then (s.updCluster (16 * r + o / 0x1000) fun u => u.write (o % 0x1000) v, stOk)
  else if o = 0xC04 then s.writeVmin r h v
  else (s, stOk)
/-- Write SEC registers (R459). -/
def State.writeSec (ses a : Nat) (h : Session) (v : Word) (s : State) : State × Nat :=
  let n := v.toNat
  let sel := fun (x : Nat) => ownerOnly h s fun s => (s.setSel ses a x, stOk)
  let o := a - 0x10000
  if 0x80 ≤ o ∧ o < 0xC0 then sel n
  else if 0xC000 ≤ o then
    ownerOnly h s fun s =>
      if !s.boot.calOpen then (s, stOk)
      else ({ s with boot := { s.boot with calStage := calPut s.boot.calStage (o - 0xC000) (leBytes 4 n), calLast := s.clk.wtime } }, stOk)
  else match o with
    | 0x04 => s.writeFuseCtl h v
    | 0x10 => if n % 8 = 0 ∨ n % 8 = 7 then ownerOnly h s fun s => (s, stNoRoom) else sel (n % 8)
    | 0x1C => s.writeFwCtl h v
    | 0x30 => s.writeCalCtl h v
    | 0x40 => ownerOnly h s fun s =>
      let s := match s.session ses with
        | some g => if g.selAt 0x10040 0 = n % 1024 then s else s.setSession ses g.unstaged
        | none => s
      (s.setSel ses a (n % 1024), stOk)
    | 0x44 =>
      let (s, st) := s.writePrCtl h v
      (match s.session ses with
        | some g => if st = stOk then s.setSession ses g.unstaged else s
        | none => s, st)
    | 0x48 => sel (n % 65536)
    | _ => if h.role = 2 then (s, stOk) else (s, stIncompat)
/-- Write CLK registers (R373). -/
def State.writeClk (a : Nat) (h : Session) (v : Word) (s : State) : State × Nat :=
  let clr := fun (i : Nat) => ({ s with clk := { s.clk with domFault := s.clk.domFault &&& ~~~(BitVec.ofNat 72 (v.toNat * 2 ^ (32 * i))) } }, stOk)
  match a with
  | 0x20004 => clr 0
  | 0x20008 => clr 1
  | 0x2000C => clr 2
  | 0x20020 => s.writeAlnCfg h v
  | 0x20044 => ({ s with clk := { s.clk with ppsTod := v.toNat } }, stOk)
  | _ => (s, stOk)
/-- Write PWR registers (R393). -/
def State.writePwr (ses a : Nat) (h : Session) (v : Word) (s : State) : State × Nat :=
  if 0x31000 ≤ a ∧ a < 0x31100 then
    if a % 16 = 4 then s.writePwrCtl ((a - 0x31000) / 16) h v else (s, stOk)
  else match a with
    | 0x3000C => s.writeFeedCtl h v
    | 0x30020 => (s.setSel ses a (v.toNat % 1024), stOk)
    | 0x30024 => (if v.getLsbD 15 then s.updGrp (h.selAt 0x30020 0) fun g => { g with crack := false, flagged := false } else s, stOk)
    | _ => (s, stOk)
/-- Change the interface a session has selected, and keep it in the start records (R305). -/
def State.putIface (s : State) (h : Session) (f : Nat → Iface → Iface) : State × Nat :=
  let i := min 16 (h.selAt 0x50010 0)
  ({ s with eth := { s.eth with ifs := tupd s.eth.ifs Iface.reset i (f i) } }.storeNet, stOk)
/-- Write ETH registers (R321, R333). -/
def State.writeEth (ses a : Nat) (h : Session) (v : Word) (s : State) : State × Nat :=
  let n := v.toNat
  let ip6 := fun (k : Nat) => s.putIface h fun _ f => { f with ip6 := f.ip6.set k v, man6 := (f.ip6.set k v).any (· ≠ 0) }
  match a with
  | 0x50000 => s.writeEthCfg h v
  | 0x50008 => s.writeBypass h v
  | 0x5000C => s.writeOeCtl h v
  | 0x50010 => (s.setSel ses a (min 16 (n % 32)), stOk)
  | 0x50014 => s.putIface h fun _ f => { f with ip4 := v, man4 := decide (v ≠ 0) }
  | 0x50018 => if n % 64 > 32 then (s, stNoRoom)
      else s.putIface h fun i f => { f with prefix4 := n % 64, dhcp := decide (i = 16) && v.getLsbD 6, en := v.getLsbD 7 }
  | 0x50020 => ip6 0
  | 0x50024 => ip6 1
  | 0x50028 => ip6 2
  | 0x5002C => ip6 3
  | 0x50030 => s.putIface h fun _ f => { f with vid := n % 4096, tag := v.getLsbD 12 }
  | 0x50040 => ({ s with eth := { s.eth with pcp := v &&& 0x3FFFFFFF } }.storeNet, stOk)
  | 0x50050 => if n / 64 % 4 = 3 ∨ n % 32 > 15 then (s, stNoRoom)
      else ({ s with eth := { s.eth with ptp := v &&& 0x00FF01FF } }.storeNet, stOk)
  | 0x50070 => if n % 65536 < 10 ∨ n % 65536 > 3600 then (s, stNoRoom)
      else ({ s with eth := { s.eth with sessCfg := n % 65536 } }.storeNet, stOk)
  | _ => (s, stOk)
/-- Write SPL registers (R352). -/
def State.writeSpl (ses a : Nat) (h : Session) (v : Word) (s : State) : State × Nat :=
  let n := v.toNat
  let stat := fun (c : Nat) => (s.updCard c fun k => { k with lost := k.lost && !v.getLsbD 8, overdrawn := k.overdrawn && !v.getLsbD 9 }, stOk)
  match a with
  | 0x60000 =>
    let life := n / 256 % 256
    let days := n % 256
    if life < 1 ∨ life > 20 ∨ days < 1 ∨ days > 90 then (s, stNoRoom)
    else ({ s with spl := { s.spl with govEn := v.getLsbD 16, lifeY := life, scrubDays := days } }, stOk)
  | 0x60040 => (s.setSel ses a (n % 4096), stOk)
  | 0x60044 => s.writeTkCtl h v
  | 0x60100 => stat 0
  | 0x60200 => stat 1
  | 0x60104 => s.writeCardCtl 0 h v
  | 0x60204 => s.writeCardCtl 1 h v
  | _ => (s, stOk)
/-- Write EVT registers (R433). -/
def State.writeEvt (ses a : Nat) (h : Session) (v : Word) (s : State) : State × Nat :=
  let n := v.toNat
  match a with
  | 0x70010 => s.writeEvtAck h v
  | 0x70014 => if n % 32 < 1 ∨ n % 32 > 16 then (s, stNoRoom) else ({ s with evt := { s.evt with rate := n % 32 } }, stOk)
  | 0x70018 => ({ s with evt := { s.evt with mask := BitVec.ofNat 64 (s.evt.mask.toNat / 2 ^ 32 * 2 ^ 32 + n) } }, stOk)
  | 0x7001C =>
    let s := match s.session ses with
      | some g => s.setSession ses { g with latch := g.latch.filter fun x => decide (x.1 ≠ 0x7001C) }
      | none => s
    ({ s with evt := { s.evt with mask := BitVec.ofNat 64 (s.evt.mask.toNat % 2 ^ 32 + n * 2 ^ 32) } }, stOk)
  | 0x70044 => (s.setSel ses a (n % 2 ^ 18), stOk)
  | _ => (s, stOk)
/-- Write SRV_P_FMT_CTL of partition p (R74): DECAY_EN, and EREF_RESET, which acts at the next step boundary. -/
def State.writeFmtCtl (p : Nat) (_ : Session) (v : Word) (s : State) : State × Nat :=
  (s.updPart p fun x => { x with decayEn := v.getLsbD 0, erefPend := x.erefPend || v.getLsbD 1 }, stOk)
/-- Write SRV_P_SCHED, SRV_P_SPOOL, SRV_P_WAITS (R303). -/
def State.writeSched (p o : Nat) (v : Word) (s : State) : State × Nat :=
  let n := v.toNat
  match o with
  | 0x00 =>
    let b := n / 65536 % 8192
    if b < 1 ∨ b > 32 ∨ n / 256 % 256 = 0 then (s, stNoRoom) else (s.updPart p fun x => { x with sched := v &&& 0x1FFFFFFF }, stOk)
  | 0x2C => if n / 2 ^ 15 < 1 ∨ n / 2 ^ 15 > 86400 then (s, stNoRoom) else (s.updPart p fun x => { x with spool := v }, stOk)
  | 0x30 => (s.updPart p fun x => { x with waits := v }, stOk)
  | _ => (s, stOk)
/-- Write SRV registers (R74, R289, R303). -/
def State.writeSrv (ses a : Nat) (h : Session) (v : Word) (s : State) : State × Nat :=
  let n := v.toNat
  let t := h.selAt 0x80040 0
  if 0x81000 ≤ a ∧ a < 0x81400 then State.writeSched ((a - 0x81000) / 0x40) (a % 0x40) v s
  else if 0x84000 ≤ a ∧ a < 0x84200 then
    let p := (a - 0x84000) / 0x20
    match a % 0x20 with
    | 0x00 => (s.updPart p fun x => { x with fSat := x.fSat && !v.getLsbD 0, fBxo := x.fBxo && !v.getLsbD 1, fFall := x.fFall && !v.getLsbD 2 }, stOk)
    | 0x0C => s.writeFmtCtl p h v
    | _ => (s, stOk)
  else match a with
    | 0x80000 => if n / 65536 = 0 ∨ n % 65536 = 0 then (s, stNoRoom)
        else ({ s with srv := { s.srv with histTtl := n / 65536, resultTtl := n % 65536 } }, stOk)
    | 0x80040 => (s.setSel ses a (n % 4096), stOk)
    | 0x80044 => if n / 2 ^ 11 % 2 ^ 18 > 131072 then (s, stNoRoom)
        else (s.updTenant t fun x =>
          { x with admitOk := v.getLsbD 0, limit := v.getLsbD 1, reject := v.getLsbD 2, promptWt := n / 8 % 256, maxReq := n / 2 ^ 11 % 2 ^ 18
                   level := if v.getLsbD 1 && !x.limit then 256 * x.depth else x.level }, stOk)
    | 0x80048 => (s.updTenant t fun x => { x with rate := n % 2 ^ 24 }, stOk)
    | 0x8004C => (s.updTenant t fun x => { x with depth := n }, stOk)
    | _ => (s, stOk)
/-- Write one word for a session: OK where it counts in DONE, written or discarded (R461). -/
def State.writeWord (s : State) (ses a : Nat) (v : Word) : State × Nat :=
  match s.session ses with
  | none => (s, stGone)
  | some h =>
    if a < 0x10000 then
      if a = 0x10 then s.writeDevStart h v else if a = 0x100 then s.writeStwCtl h v else (s, stOk)
    else if a < 0x20000 then State.writeSec ses a h v s
    else if a < 0x30000 then State.writeClk a h v s
    else if a < 0x40000 then State.writePwr ses a h v s
    else if a < 0x50000 then if a = 0x40000 then s.writeThmCfg h v else (s, stOk)
    else if a < 0x60000 then State.writeEth ses a h v s
    else if a < 0x70000 then State.writeSpl ses a h v s
    else if a < 0x80000 then State.writeEvt ses a h v s
    else if a < 0x90000 then State.writeSrv ses a h v s
    else if 0x100000 ≤ a ∧ a < 0x500000 then State.writeRegion a h v s
    else (s, stOk)
/-- Write words in ascending order up to the first that ends the message: how many took effect, and the status. -/
def State.writeWords (s : State) (ses a : Nat) : List Word → State × Nat × Nat
  | [] => (s, 0, stOk)
  | v :: vs =>
    let (t, st) := s.writeWord ses a v
    if st ≠ stOk then (t, 0, st)
    else
      let (t, n, st) := t.writeWords ses (a + 4) vs
      (t, n + 1, st)
/-- REG_WRITE: words from ADDR in ascending order; DONE gives those written (R327, R461). -/
def execRegWrite (m : Msg) (addr : Nat) (vals : List Word) (s : State) : Out :=
  let n := vals.length
  s.onMsg m 1 2 (8 + 4 * n) (decide (1 ≤ n) && decide (n ≤ 256) && decide (addr % 4 = 0)) false fun _ s =>
    let (s, done, st) := s.writeWords m.ses addr vals
    (s, some (st, beBytes 4 addr ++ beBytes 2 done ++ beBytes 2 0))
/-- EREF_RESET: a write of SRV_P_FMT_CTL with EREF_RESET 1. -/
def execErefReset (m : Msg) (p : Nat) (decay : Bool) (s : State) : Out :=
  if p < 16 then
    s.onRegWrite m (0x8400C + 0x20 * p) fun h s => s.writeFmtCtl p h (BitVec.ofNat 32 (2 + decay.toNat))
  else .fault .noSuchUnit

/-! ### Telemetry (R464) -/

/-- Period of a kind, from the session's PERIOD: kinds 0, 1 and 6 take 1 ms or more, the others 1,000 ms or more. -/
def Session.periodOf (h : Session) (kind : Nat) : Nat :=
  if kind = 0 ∨ kind = 1 ∨ kind = 6 then h.telMs else max 1000 h.telMs
/-- TEL_SUB: PERIOD 0 stops; a bit above 11 is INCOMPATIBLE. -/
def execTelSub (m : Msg) (period kinds : Nat) (s : State) : Out :=
  s.onMsg m 5 1 8 (decide (kinds < 4096)) false fun h s =>
    let last : Table Nat := (List.range 12).map fun k => (k, s.clk.wtime)
    (s.setSession m.ses { h with telMs := min period 3600000, telKinds := if period = 0 then 0 else kinds
                                 telLast := last.filter fun x => decide (x.2 ≠ 0) }, some (stOk, []))
/-- TEL_RECORD: a kind's period has elapsed for a session. -/
def execTelRecord (ses kind : Nat) (s : State) : Out :=
  match s.session ses with
  | none => .next s
  | some h =>
    if h.telMs = 0 ∨ kind > 11 ∨ !h.telKinds.testBit kind ∨ s.clk.wtime < tget h.telLast 0 kind + msecs (h.periodOf kind) then .next s
    else .next ((s.setSession ses { h with telLast := tset h.telLast 0 kind s.clk.wtime }).telRecord ses h kind)

/-! ### Attestation (R323, R454) -/

/-- A digest as a field of 64 bytes. -/
def digestBytes (d : Nat) : List Byte := leBytes 64 d
/-- Firmware table of a quote. -/
def State.quoteFw (s : State) : List Byte :=
  compNums.flatMap fun k =>
    let c := s.comp k
    beBytes 1 k ++ beBytes 1 c.active.svn ++ beBytes 1 (at_ 0 (decide (c.state = 4)) + at_ 1 (decide (c.state = 5))) ++ beBytes 1 0
      ++ beBytes 4 c.active.version ++ digestBytes c.active.measure
/-- State digests of a quote: defect map, calibration record, principal table. -/
def State.quoteState (s : State) : List Byte :=
  let cal := (List.range 0x4000).map fun i => tget s.boot.cal 0 i
  let prs := (List.range 1024).flatMap fun i =>
    let e := s.prAt i
    leBytes 2 (at_ 0 e.valid + 2 * e.role + 16 * e.tenant) ++ leBytes 2 e.mask.toNat ++ leBytes 64 e.digest
  digestBytes (dig (s.evt.slubs.flatMap Slub.bytes)) ++ digestBytes (dig cal) ++ digestBytes (dig prs)
/-- A partition's entry of a quote. -/
def State.quotePart (s : State) (p : Nat) : List Byte :=
  let x := s.part p
  beBytes 1 p ++ beBytes 1 x.state.code ++ beBytes 1 (at_ 0 x.debug + at_ 1 x.signed + at_ 2 (decide (x.alt ≠ 0)) + at_ 3 x.mixed)
    ++ beBytes 1 x.epoch ++ beBytes 4 0 ++ digestBytes x.confNow ++ digestBytes x.signer ++ digestBytes x.wtDigest
/-- The quote, up to its signature. -/
def State.quoteBody (s : State) (h : Session) (nonce parts sel : Nat) : List Byte :=
  let ps := partNums.filter fun p => parts.testBit p && (s.part p).loaded && s.mayUse h p
  let fuses := at_ 0 s.boot.owner.isSome + at_ 1 s.boot.debugLock + at_ 2 s.boot.isolate
  beBytes 2 1 ++ beBytes 2 (ps.foldl (fun n p => n + 2 ^ p) 0) ++ beBytes 2 sel ++ beBytes 1 ps.length ++ beBytes 1 0
    ++ leBytes 16 Config.serial ++ beBytes 8 s.clk.wtime ++ beBytes 32 nonce ++ (List.range 4).flatMap (fun i => beBytes 1 (s.rb i))
    ++ beBytes 1 fuses ++ beBytes 3 0 ++ digestBytes (s.boot.owner.getD 0) ++ s.quoteFw
    ++ (if sel % 2 = 1 then s.quoteState else []) ++ ps.flatMap s.quotePart
/-- The context string "tuirrazel-quote". -/
def quoteContext : List Byte := [0x74, 0x75, 0x69, 0x72, 0x72, 0x61, 0x7A, 0x65, 0x6C, 0x2D, 0x71, 0x75, 0x6F, 0x74, 0x65]
/-- QUOTE. -/
def execQuote (m : Msg) (nonce parts sel : Nat) (s : State) : Out :=
  s.onMsg m 6 1 40 (decide (sel ≤ 1) && decide (parts < 65536)) false fun h s =>
    let b := s.quoteBody h nonce parts sel
    (s, some (stOk, b ++ fitBytes 3309 (Config.sign (dig (quoteContext ++ b)))))
/-- IDENTITY. -/
def execIdentity (m : Msg) (s : State) : Out :=
  s.onMsg m 6 2 0 true false fun _ s => (s, some (stOk, leBytes 16 Config.serial ++ fitBytes 1952 Config.deviceKey))

end Sys2Proof.Machine
end

