-- ==== Sys2Proof/Machine/Dispatch.lean ====
section
/-!
DEFINITION. One arm per command: its meaning, on everything but the queue.
-/
namespace Sys2Proof.Machine

/-- The effect of a command. -/
def exec (i : Instr) (s : State) : Host.Outcome State Fault Refusal :=
  match i with
  | .nop c w => Sys2Proof.Machine.execNop c w s
  | .endRun c w => Sys2Proof.Machine.execEndRun c w s
  | .endComplete c => Sys2Proof.Machine.execEndComplete c s
  | .halt c w => Sys2Proof.Machine.execHalt c w s
  | .jmp c w => Sys2Proof.Machine.execJmp c w s
  | .loop c w => Sys2Proof.Machine.execLoop c w s
  | .loops c w => Sys2Proof.Machine.execLoops c w s
  | .add c w => Sys2Proof.Machine.execAdd c w s
  | .sub c w => Sys2Proof.Machine.execSub c w s
  | .mul c w => Sys2Proof.Machine.execMul c w s
  | .and c w => Sys2Proof.Machine.execAnd c w s
  | .or c w => Sys2Proof.Machine.execOr c w s
  | .xor c w => Sys2Proof.Machine.execXor c w s
  | .shf c w => Sys2Proof.Machine.execShf c w s
  | .ldi c w => Sys2Proof.Machine.execLdi c w s
  | .pcmp c w => Sys2Proof.Machine.execPcmp c w s
  | .plog c w => Sys2Proof.Machine.execPlog c w s
  | .mfsr c w => Sys2Proof.Machine.execMfsr c w s
  | .mtsr c w => Sys2Proof.Machine.execMtsr c w s
  | .emm c w fs => Sys2Proof.Machine.execEmm c w fs s
  | .emmr c w fs => Sys2Proof.Machine.execEmmr c w fs s
  | .engineOutputWrite c => Sys2Proof.Machine.execEngineOutputWrite c s
  | .engineTileRelease c => Sys2Proof.Machine.execEngineTileRelease c s
  | .eclr c w => Sys2Proof.Machine.execEclr c w s
  | .eclrClear c => Sys2Proof.Machine.execEclrClear c s
  | .ewait c w => Sys2Proof.Machine.execEwait c w s
  | .ewaitRelease c => Sys2Proof.Machine.execEwaitRelease c s
  | .vadd c w => Sys2Proof.Machine.execVadd c w s
  | .vsub c w => Sys2Proof.Machine.execVsub c w s
  | .vmul c w => Sys2Proof.Machine.execVmul c w s
  | .vfma c w => Sys2Proof.Machine.execVfma c w s
  | .vmax c w => Sys2Proof.Machine.execVmax c w s
  | .vmin c w => Sys2Proof.Machine.execVmin c w s
  | .vexp c w => Sys2Proof.Machine.execVexp c w s
  | .vrcp c w => Sys2Proof.Machine.execVrcp c w s
  | .vrsq c w => Sys2Proof.Machine.execVrsq c w s
  | .vact c w => Sys2Proof.Machine.execVact c w s
  | .vcmp c w => Sys2Proof.Machine.execVcmp c w s
  | .vsel c w => Sys2Proof.Machine.execVsel c w s
  | .vred c w => Sys2Proof.Machine.execVred c w s
  | .vbcst c w => Sys2Proof.Machine.execVbcst c w s
  | .vcva c w entry => Sys2Proof.Machine.execVcva c w entry s
  | .vcvm c w => Sys2Proof.Machine.execVcvm c w s
  | .vcvf c w es => Sys2Proof.Machine.execVcvf c w s es
  | .vqkv c w es => Sys2Proof.Machine.execVqkv c w s es
  | .vdqp c w es => Sys2Proof.Machine.execVdqp c w s es
  | .ld c w es => Sys2Proof.Machine.execLd c w es s
  | .st c w es => Sys2Proof.Machine.execSt c w s es
  | .ldv c w es => Sys2Proof.Machine.execLdv c w es s
  | .stv c w => Sys2Proof.Machine.execStv c w s
  | .pcpy c w es => Sys2Proof.Machine.execPcpy c w s es
  | .vld c w => Sys2Proof.Machine.execVld c w s
  | .tileCommit c fs => Sys2Proof.Machine.execTileCommit c fs s
  | .vaultRunResume c => Sys2Proof.Machine.execVaultRunResume c s
  | .vrd c w fs => Sys2Proof.Machine.execVrd c w fs s
  | .vaultOperationComplete c wait fs es => Sys2Proof.Machine.execVaultOperationComplete c s wait fs es
  | .vwr c w => Sys2Proof.Machine.execVwr c w s
  | .cradv c w => Sys2Proof.Machine.execCradv c w s
  | .tsend c w => Sys2Proof.Machine.execTsend c w s
  | .twait c w => Sys2Proof.Machine.execTwait c w s
  | .twaitRelease c => Sys2Proof.Machine.execTwaitRelease c s
  | .lsend c w => Sys2Proof.Machine.execLsend c w s
  | .lrecv c w => Sys2Proof.Machine.execLrecv c w s
  | .lput c w => Sys2Proof.Machine.execLput c w s
  | .lputCreditRelease c => Sys2Proof.Machine.execLputCreditRelease c s
  | .lcrd c w => Sys2Proof.Machine.execLcrd c w s
  | .bar c w => Sys2Proof.Machine.execBar c w s
  | .barw c w => Sys2Proof.Machine.execBarw c w s
  | .barwRelease c entry err => Sys2Proof.Machine.execBarwRelease c entry err s
  | .waitc c w => Sys2Proof.Machine.execWaitc c w s
  | .waitcRelease c => Sys2Proof.Machine.execWaitcRelease c s
  | .waitf c w => Sys2Proof.Machine.execWaitf c w s
  | .fence c w => Sys2Proof.Machine.execFence c w s
  | .fenceRelease c => Sys2Proof.Machine.execFenceRelease c s
  | .evt c w => Sys2Proof.Machine.execEvt c w s
  | .frameBoundary r gate => Sys2Proof.Machine.execFrameBoundary r gate s
  | .routerSlot c slot es ps => Sys2Proof.Machine.execRouterSlot c slot es s ps
  | .seamHoldEnd r cycles stalls => Sys2Proof.Machine.execSeamHoldEnd r cycles stalls s
  | .creditWordArrival c dir gray => Sys2Proof.Machine.execCreditWordArrival c dir s gray
  | .treeFlitArrival sw vc src err => Sys2Proof.Machine.execTreeFlitArrival sw vc src err s
  | .treeDelivery c err => Sys2Proof.Machine.execTreeDelivery c err s
  | .treeAck seqno => Sys2Proof.Machine.execTreeAck seqno s
  | .treeResend seqno => Sys2Proof.Machine.execTreeResend seqno s
  | .barrierArrival sw err waits => Sys2Proof.Machine.execBarrierArrival sw err waits s
  | .switchOutOfService h => Sys2Proof.Machine.execSwitchOutOfService h s
  | .switchDrained h => Sys2Proof.Machine.execSwitchDrained h s
  | .switchReturn h => Sys2Proof.Machine.execSwitchReturn h s
  | .stepLaunch p => Sys2Proof.Machine.execStepLaunch p s
  | .stepCommit p l fac => Sys2Proof.Machine.execStepCommit p l fac s
  | .replayRestart p raised => Sys2Proof.Machine.execReplayRestart p s raised
  | .faultStepAbandon p => Sys2Proof.Machine.execFaultStepAbandon p s
  | .faultRerun p raised => Sys2Proof.Machine.execFaultRerun p s raised
  | .stepWatchdog p => Sys2Proof.Machine.execStepWatchdog p s
  | .reshardComplete u => Sys2Proof.Machine.execReshardComplete u s
  | .heartbeatSample r silent => Sys2Proof.Machine.execHeartbeatSample r silent s
  | .liveRepair p => Sys2Proof.Machine.execLiveRepair p s
  | .repairCopyDone p => Sys2Proof.Machine.execRepairCopyDone p s
  | .vaultRestoreDone p => Sys2Proof.Machine.execVaultRestoreDone p s
  | .agentHeartbeatMiss r => Sys2Proof.Machine.execAgentHeartbeatMiss r s
  | .stewardFailover => Sys2Proof.Machine.execStewardFailover s
  | .noSteward => Sys2Proof.Machine.execNoSteward s
  | .init a body => Sys2Proof.Machine.execInit a body s
  | .prove a ses hpk hsig valid => Sys2Proof.Machine.execProve a ses hpk hsig valid s
  | .handshakeTimeout ses => Sys2Proof.Machine.execHandshakeTimeout ses s
  | .ping m => Sys2Proof.Machine.execPing m s
  | .close m => Sys2Proof.Machine.execClose m s
  | .rekey m answer kem => Sys2Proof.Machine.execRekey m answer kem s
  | .ackonly d => Sys2Proof.Machine.execAckonly d s
  | .datagramReceive d => Sys2Proof.Machine.execDatagramReceive d s
  | .messageRetransmit ses seq => Sys2Proof.Machine.execMessageRetransmit ses seq s
  | .sessionLost ses => Sys2Proof.Machine.execSessionLost ses s
  | .sessionIdleTimeout ses => Sys2Proof.Machine.execSessionIdleTimeout ses s
  | .regRead m addr count => Sys2Proof.Machine.execRegRead m addr count s
  | .regWrite m addr vals => Sys2Proof.Machine.execRegWrite m addr vals s
  | .ethModeChange m v => Sys2Proof.Machine.execEthModeChange m v s
  | .bypassForce m v => Sys2Proof.Machine.execBypassForce m v s
  | .imgStart m kind target slot hops total => Sys2Proof.Machine.execImgStart m kind target slot hops total s
  | .imgBlock m xfer off data sig => Sys2Proof.Machine.execImgBlock m xfer off data sig s
  | .weightsLoaded p => Sys2Proof.Machine.execWeightsLoaded p s
  | .transferTimeout xfer => Sys2Proof.Machine.execTransferTimeout xfer s
  | .imgCancel m xfer => Sys2Proof.Machine.execImgCancel m xfer s
  | .splList m kind count first => Sys2Proof.Machine.execSplList m kind count first s
  | .splDelete m kind digest => Sys2Proof.Machine.execSplDelete m kind digest s
  | .loadStored m digest => Sys2Proof.Machine.execLoadStored m digest s
  | .partialApply p => Sys2Proof.Machine.execPartialApply p s
  | .unload m => Sys2Proof.Machine.execUnload m s
  | .forcedUnload m => Sys2Proof.Machine.execForcedUnload m s
  | .doffStaged m digest => Sys2Proof.Machine.execDoffStaged m digest s
  | .doffInPlace m digest => Sys2Proof.Machine.execDoffInPlace m digest s
  | .doffSwitch p => Sys2Proof.Machine.execDoffSwitch p s
  | .inPlaceUnitHold p => Sys2Proof.Machine.execInPlaceUnitHold p s
  | .doffCancel m => Sys2Proof.Machine.execDoffCancel m s
  | .adapterSetReady m slot => Sys2Proof.Machine.execAdapterSetReady m slot s
  | .adapterRetire m slot => Sys2Proof.Machine.execAdapterRetire m slot s
  | .adapterNameTuning m slot => Sys2Proof.Machine.execAdapterNameTuning m slot s
  | .tune m slot steps ids => Sys2Proof.Machine.execTune m slot steps ids s
  | .submit m q toks => Sys2Proof.Machine.execSubmit m q toks s
  | .prompt m id off toks => Sys2Proof.Machine.execPrompt m id off toks s
  | .promptTimeout u => Sys2Proof.Machine.execPromptTimeout u s
  | .read m id n => Sys2Proof.Machine.execRead m id n s
  | .status m id => Sys2Proof.Machine.execStatus m id s
  | .cancel m id => Sys2Proof.Machine.execCancel m id s
  | .pause m id => Sys2Proof.Machine.execPause m id s
  | .release m id => Sys2Proof.Machine.execRelease m id s
  | .claim m id => Sys2Proof.Machine.execClaim m id s
  | .resume m id append change v toks => Sys2Proof.Machine.execResume m id append change v toks s
  | .resultTtlExpiry u => Sys2Proof.Machine.execResultTtlExpiry u s
  | .histTtlExpiry u => Sys2Proof.Machine.execHistTtlExpiry u s
  | .kvTtlExpiry u => Sys2Proof.Machine.execKvTtlExpiry u s
  | .pauseDwellExpiry u => Sys2Proof.Machine.execPauseDwellExpiry u s
  | .spoolOutDurable u => Sys2Proof.Machine.execSpoolOutDurable u s
  | .spoolRetry u => Sys2Proof.Machine.execSpoolRetry u s
  | .spoolInComplete u => Sys2Proof.Machine.execSpoolInComplete u s
  | .spoolWaitExpiry u => Sys2Proof.Machine.execSpoolWaitExpiry u s
  | .ingestWaitExpiry u => Sys2Proof.Machine.execIngestWaitExpiry u s
  | .bucketRefill => Sys2Proof.Machine.execBucketRefill s
  | .telSub m period kinds => Sys2Proof.Machine.execTelSub m period kinds s
  | .telRecord ses kind => Sys2Proof.Machine.execTelRecord ses kind s
  | .quote m nonce parts sel => Sys2Proof.Machine.execQuote m nonce parts sel s
  | .identity m => Sys2Proof.Machine.execIdentity m s
  | .evtRead m first count => Sys2Proof.Machine.execEvtRead m first count s
  | .evtSub m classes => Sys2Proof.Machine.execEvtSub m classes s
  | .abortPartition m => Sys2Proof.Machine.execAbortPartition m s
  | .abortDevice m => Sys2Proof.Machine.execAbortDevice m s
  | .helloSend => Sys2Proof.Machine.execHelloSend s
  | .hello port serial rsv => Sys2Proof.Machine.execHello port serial rsv s
  | .rlyStart port serial kind hops total => Sys2Proof.Machine.execRlyStart port serial kind hops total s
  | .rlyBlock xfer off data sig => Sys2Proof.Machine.execRlyBlock xfer off data sig s
  | .rlyDone xfer => Sys2Proof.Machine.execRlyDone xfer s
  | .frameForward u dst src prio => Sys2Proof.Machine.execFrameForward u dst src prio s
  | .protocolAnswer u tag => Sys2Proof.Machine.execProtocolAnswer u tag s
  | .pfcPauseFrame u en on_ => Sys2Proof.Machine.execPfcPauseFrame u en on_ s
  | .linkDown u => Sys2Proof.Machine.execLinkDown u s
  | .linkUp u => Sys2Proof.Machine.execLinkUp u s
  | .opticalEngineRemovalRequest m v => Sys2Proof.Machine.execOpticalEngineRemovalRequest m v s
  | .opticalEngineRemoved port => Sys2Proof.Machine.execOpticalEngineRemoved port s
  | .opticalEngineInserted port f => Sys2Proof.Machine.execOpticalEngineInserted port f s
  | .opticalEngineReqClear m v => Sys2Proof.Machine.execOpticalEngineReqClear m v s
  | .ptpEventMessage u dom tr t1 t4 t2 t3 => Sys2Proof.Machine.execPtpEventMessage u dom tr t1 t4 t2 t3 s
  | .ptpHoldover => Sys2Proof.Machine.execPtpHoldover s
  | .ppsEdge t => Sys2Proof.Machine.execPpsEdge t s
  | .ppsEdgeMissing => Sys2Proof.Machine.execPpsEdgeMissing s
  | .wtimeCheckpoint => Sys2Proof.Machine.execWtimeCheckpoint s
  | .droopTrip r next => Sys2Proof.Machine.execDroopTrip r next s
  | .ratioStepDown r => Sys2Proof.Machine.execRatioStepDown r s
  | .floorStretchReport r => Sys2Proof.Machine.execFloorStretchReport r s
  | .ratioStepUp r => Sys2Proof.Machine.execRatioStepUp r s
  | .clockStartRamp r => Sys2Proof.Machine.execClockStartRamp r s
  | .clockMonitorWindow d kHz noEdge => Sys2Proof.Machine.execClockMonitorWindow d kHz noEdge s
  | .regionClockRestart r => Sys2Proof.Machine.execRegionClockRestart r s
  | .rootPllUnlock refLost => Sys2Proof.Machine.execRootPllUnlock refLost s
  | .pllLockRetry ok => Sys2Proof.Machine.execPllLockRetry ok s
  | .feedUndervoltage b volt => Sys2Proof.Machine.execFeedUndervoltage b volt s
  | .feedOvervoltage b volt => Sys2Proof.Machine.execFeedOvervoltage b volt s
  | .feedReturn b volt => Sys2Proof.Machine.execFeedReturn b volt s
  | .bothFeedsLost => Sys2Proof.Machine.execBothFeedsLost s
  | .feedPresentOpen b => Sys2Proof.Machine.execFeedPresentOpen b s
  | .feedRemovalRequest m b => Sys2Proof.Machine.execFeedRemovalRequest m b s
  | .feedReqClear m b => Sys2Proof.Machine.execFeedReqClear m b s
  | .regulatorDisconnect g u cause => Sys2Proof.Machine.execRegulatorDisconnect g u cause s
  | .powerMeasure x => Sys2Proof.Machine.execPowerMeasure x s
  | .powerCapAdjust p => Sys2Proof.Machine.execPowerCapAdjust p s
  | .vcoreTrim r => Sys2Proof.Machine.execVcoreTrim r s
  | .pathResistanceMeasure g cur uohm => Sys2Proof.Machine.execPathResistanceMeasure g cur uohm s
  | .gustAdmit r regs bad => Sys2Proof.Machine.execGustAdmit r regs bad s
  | .powerOnRefused r cause => Sys2Proof.Machine.execPowerOnRefused r cause s
  | .regionSwitchOff r => Sys2Proof.Machine.execRegionSwitchOff r s
  | .standbyReturn m p => Sys2Proof.Machine.execStandbyReturn m p s
  | .vminClear m r => Sys2Proof.Machine.execVminClear m r s
  | .sweepStart => Sys2Proof.Machine.execSweepStart s
  | .sweepEnd x => Sys2Proof.Machine.execSweepEnd x s
  | .stopConversion r t => Sys2Proof.Machine.execStopConversion r t s
  | .coolingConditionSet u => Sys2Proof.Machine.execCoolingConditionSet u s
  | .coolingConditionClear u => Sys2Proof.Machine.execCoolingConditionClear u s
  | .thermalLifePersist => Sys2Proof.Machine.execThermalLifePersist s
  | .vaultRefresh c => Sys2Proof.Machine.execVaultRefresh c s
  | .vaultScrubRead c fs => Sys2Proof.Machine.execVaultScrubRead c fs s
  | .secondPortTimeout c => Sys2Proof.Machine.execSecondPortTimeout c s
  | .eventRecordEntry q => Sys2Proof.Machine.execEventRecordEntry q s
  | .eventPersistBatch => Sys2Proof.Machine.execEventPersistBatch s
  | .evtAck m v => Sys2Proof.Machine.execEvtAck m v s
  | .spoolCardRemovalRequest m c => Sys2Proof.Machine.execSpoolCardRemovalRequest m c s
  | .spoolCardSafe c => Sys2Proof.Machine.execSpoolCardSafe c s
  | .spoolCardReqClear m c => Sys2Proof.Machine.execSpoolCardReqClear m c s
  | .spoolCardInserted c f kind width rate spare pe service a sent => Sys2Proof.Machine.execSpoolCardInserted c f kind width rate spare pe service a sent s
  | .spoolRebuildComplete c => Sys2Proof.Machine.execSpoolRebuildComplete c s
  | .spoolCardLost c => Sys2Proof.Machine.execSpoolCardLost c s
  | .spoolScrub c pkg block tier obj bytes spare old fail => Sys2Proof.Machine.execSpoolScrub c pkg block tier obj bytes spare old fail s
  | .governorRecompute c a pe => Sys2Proof.Machine.execGovernorRecompute c a pe s
  | .governorRefill c => Sys2Proof.Machine.execGovernorRefill c s
  | .shred m => Sys2Proof.Machine.execShred m s
  | .format m c => Sys2Proof.Machine.execFormat m c s
  | .erefReset m p decay => Sys2Proof.Machine.execErefReset m p decay s
  | .auxRailUp p0 p1 alt recover cause => Sys2Proof.Machine.execAuxRailUp p0 p1 alt recover cause s
  | .startComplete => Sys2Proof.Machine.execStartComplete s
  | .startRetry cause => Sys2Proof.Machine.execStartRetry cause s
  | .failsReset => Sys2Proof.Machine.execFailsReset s
  | .doldrumsRetry m autoload cause => Sys2Proof.Machine.execDoldrumsRetry m autoload cause s
  | .serviceReset p0 p1 alt recover cause => Sys2Proof.Machine.execServiceReset p0 p1 alt recover cause s
  | .stewardRemovalRequest m => Sys2Proof.Machine.execStewardRemovalRequest m s
  | .stewardSwap m => Sys2Proof.Machine.execStewardSwap m s
  | .stewardInserted f => Sys2Proof.Machine.execStewardInserted f s
  | .fwActivate m relayAct => Sys2Proof.Machine.execFwActivate m relayAct s
  | .fwRevert m relayAct => Sys2Proof.Machine.execFwRevert m relayAct s
  | .fwConfirm k => Sys2Proof.Machine.execFwConfirm k s
  | .fuseOwnerDigest m confirm => Sys2Proof.Machine.execFuseOwnerDigest m confirm s
  | .fuseDebugLock m confirm => Sys2Proof.Machine.execFuseDebugLock m confirm s
  | .fuseIsolation m confirm => Sys2Proof.Machine.execFuseIsolation m confirm s
  | .fuseCounterAdvance m confirm counter => Sys2Proof.Machine.execFuseCounterAdvance m confirm counter s
  | .principalApply m v => Sys2Proof.Machine.execPrincipalApply m v s
  | .calOpen m => Sys2Proof.Machine.execCalOpen m s
  | .calCommit m => Sys2Proof.Machine.execCalCommit m s
  | .calAbandon m => Sys2Proof.Machine.execCalAbandon m s
  | .calStagingTimeout => Sys2Proof.Machine.execCalStagingTimeout s
  | .dhcpv4AndSlaac ip4 prefix4 ip6 => Sys2Proof.Machine.execDhcpv4AndSlaac ip4 prefix4 ip6 s
  | .ethernetReferenceRetry port ok => Sys2Proof.Machine.execEthernetReferenceRetry port ok s
  | .componentRestartDone k => Sys2Proof.Machine.execComponentRestartDone k s
  | .bootFlashRecovery head body sig => Sys2Proof.Machine.execBootFlashRecovery head body sig s
  | .principalBootstrap u mask digest => Sys2Proof.Machine.execPrincipalBootstrap u mask digest s
  | .svcPresentChange present => Sys2Proof.Machine.execSvcPresentChange present s
  | .vcoreDigitise r mv => Sys2Proof.Machine.execVcoreDigitise r mv s

end Sys2Proof.Machine
end

