-- ==== Sys2Proof/WellFormed.lean ====
section
/-!
DEFINITION. Well-formed commands: every unit a command names exists. Messages and datagrams are well-formed whatever they
hold, since the part answers or drops the malformed ones itself (R476).
-/
namespace Sys2Proof

/-- Numbers of cores (R8 to R11), regions (R8), partitions (R7), switches (R164), interfaces (R304), requests (R7), cards
(R335), components (R444), groups and regulators (R379), principals (R451), queues (R425) and cooling conditions (R403)
lie in range. -/
def Instr.wf : Instr → Bool
  | .nop c _ => decide (c < 73728)
  | .endRun c _ => decide (c < 73728)
  | .endComplete c => decide (c < 73728)
  | .halt c _ => decide (c < 73728)
  | .jmp c _ => decide (c < 73728)
  | .loop c _ => decide (c < 73728)
  | .loops c _ => decide (c < 73728)
  | .add c _ => decide (c < 73728)
  | .sub c _ => decide (c < 73728)
  | .mul c _ => decide (c < 73728)
  | .and c _ => decide (c < 73728)
  | .or c _ => decide (c < 73728)
  | .xor c _ => decide (c < 73728)
  | .shf c _ => decide (c < 73728)
  | .ldi c _ => decide (c < 73728)
  | .pcmp c _ => decide (c < 73728)
  | .plog c _ => decide (c < 73728)
  | .mfsr c _ => decide (c < 73728)
  | .mtsr c _ => decide (c < 73728)
  | .emm c _ _ => decide (c < 73728)
  | .emmr c _ _ => decide (c < 73728)
  | .engineOutputWrite c => decide (c < 73728)
  | .engineTileRelease c => decide (c < 73728)
  | .eclr c _ => decide (c < 73728)
  | .eclrClear c => decide (c < 73728)
  | .ewait c _ => decide (c < 73728)
  | .ewaitRelease c => decide (c < 73728)
  | .vadd c _ => decide (c < 73728)
  | .vsub c _ => decide (c < 73728)
  | .vmul c _ => decide (c < 73728)
  | .vfma c _ => decide (c < 73728)
  | .vmax c _ => decide (c < 73728)
  | .vmin c _ => decide (c < 73728)
  | .vexp c _ => decide (c < 73728)
  | .vrcp c _ => decide (c < 73728)
  | .vrsq c _ => decide (c < 73728)
  | .vact c _ => decide (c < 73728)
  | .vcmp c _ => decide (c < 73728)
  | .vsel c _ => decide (c < 73728)
  | .vred c _ => decide (c < 73728)
  | .vbcst c _ => decide (c < 73728)
  | .vcva c _ _ => decide (c < 73728)
  | .vcvm c _ => decide (c < 73728)
  | .vcvf c _ _ => decide (c < 73728)
  | .vqkv c _ _ => decide (c < 73728)
  | .vdqp c _ _ => decide (c < 73728)
  | .ld c _ _ => decide (c < 73728)
  | .st c _ _ => decide (c < 73728)
  | .ldv c _ _ => decide (c < 73728)
  | .stv c _ => decide (c < 73728)
  | .pcpy c _ _ => decide (c < 73728)
  | .vld c _ => decide (c < 73728)
  | .tileCommit c _ => decide (c < 73728)
  | .vaultRunResume c => decide (c < 73728)
  | .vrd c _ _ => decide (c < 73728)
  | .vaultOperationComplete c _ _ _ => decide (c < 73728)
  | .vwr c _ => decide (c < 73728)
  | .cradv c _ => decide (c < 73728)
  | .tsend c _ => decide (c < 73728)
  | .twait c _ => decide (c < 73728)
  | .twaitRelease c => decide (c < 73728)
  | .lsend c _ => decide (c < 73728)
  | .lrecv c _ => decide (c < 73728)
  | .lput c _ => decide (c < 73728)
  | .lputCreditRelease c => decide (c < 73728)
  | .lcrd c _ => decide (c < 73728)
  | .bar c _ => decide (c < 73728)
  | .barw c _ => decide (c < 73728)
  | .barwRelease c _ _ => decide (c < 73728)
  | .waitc c _ => decide (c < 73728)
  | .waitcRelease c => decide (c < 73728)
  | .waitf c _ => decide (c < 73728)
  | .fence c _ => decide (c < 73728)
  | .fenceRelease c => decide (c < 73728)
  | .evt c _ => decide (c < 73728)
  | .frameBoundary r _ => decide (r < 64)
  | .routerSlot c _ _ _ => decide (c < 73728)
  | .seamHoldEnd r _ _ => decide (r < 64)
  | .creditWordArrival c dir _ => decide (c < 73728) && decide (dir < 4)
  | .treeFlitArrival sw _ _ _ => (decide (sw < 1098) || decide (sw = 1100))
  | .treeDelivery c _ => decide (c < 73728)
  | .treeAck _ => true
  | .treeResend _ => true
  | .barrierArrival sw _ _ => decide (sw < 1098)
  | .switchOutOfService h => decide (h < 10)
  | .switchDrained h => decide (h < 10)
  | .switchReturn h => decide (h < 10)
  | .stepLaunch p => decide (p < 16)
  | .stepCommit p _ _ => decide (p < 16)
  | .replayRestart p _ => decide (p < 16)
  | .faultStepAbandon p => decide (p < 16)
  | .faultRerun p _ => decide (p < 16)
  | .stepWatchdog p => decide (p < 16)
  | .reshardComplete i => decide (i < 131072)
  | .heartbeatSample r _ => decide (r < 64)
  | .liveRepair p => decide (p < 16)
  | .repairCopyDone p => decide (p < 16)
  | .vaultRestoreDone p => decide (p < 16)
  | .agentHeartbeatMiss r => decide (r < 64)
  | .stewardFailover => true
  | .noSteward => true
  | .init _ _ => true
  | .prove _ _ _ _ _ => true
  | .handshakeTimeout _ => true
  | .ping _ => true
  | .close _ => true
  | .rekey _ _ _ => true
  | .ackonly _ => true
  | .datagramReceive _ => true
  | .messageRetransmit _ _ => true
  | .sessionLost _ => true
  | .sessionIdleTimeout _ => true
  | .regRead _ _ _ => true
  | .regWrite _ _ _ => true
  | .ethModeChange _ _ => true
  | .bypassForce _ _ => true
  | .imgStart _ _ _ _ _ _ => true
  | .imgBlock _ _ _ _ _ => true
  | .weightsLoaded p => decide (p < 16)
  | .transferTimeout _ => true
  | .imgCancel _ _ => true
  | .splList _ _ _ _ => true
  | .splDelete _ _ _ => true
  | .loadStored _ _ => true
  | .partialApply p => decide (p < 16)
  | .unload _ => true
  | .forcedUnload _ => true
  | .doffStaged _ _ => true
  | .doffInPlace _ _ => true
  | .doffSwitch p => decide (p < 16)
  | .inPlaceUnitHold p => decide (p < 16)
  | .doffCancel _ => true
  | .adapterSetReady _ _ => true
  | .adapterRetire _ _ => true
  | .adapterNameTuning _ _ => true
  | .tune _ _ _ _ => true
  | .submit _ _ _ => true
  | .prompt _ _ _ _ => true
  | .promptTimeout i => decide (i < 131072)
  | .read _ _ _ => true
  | .status _ _ => true
  | .cancel _ _ => true
  | .pause _ _ => true
  | .release _ _ => true
  | .claim _ _ => true
  | .resume _ _ _ _ _ _ => true
  | .resultTtlExpiry i => decide (i < 131072)
  | .histTtlExpiry i => decide (i < 131072)
  | .kvTtlExpiry i => decide (i < 131072)
  | .pauseDwellExpiry i => decide (i < 131072)
  | .spoolOutDurable i => decide (i < 131072)
  | .spoolRetry i => decide (i < 131072)
  | .spoolInComplete i => decide (i < 131072)
  | .spoolWaitExpiry i => decide (i < 131072)
  | .ingestWaitExpiry i => decide (i < 131072)
  | .bucketRefill => true
  | .telSub _ _ _ => true
  | .telRecord _ _ => true
  | .quote _ _ _ _ => true
  | .identity _ => true
  | .evtRead _ _ _ => true
  | .evtSub _ _ => true
  | .abortPartition _ => true
  | .abortDevice _ => true
  | .helloSend => true
  | .hello port _ _ => decide (port < 2)
  | .rlyStart port _ _ _ _ => decide (port < 2)
  | .rlyBlock _ _ _ _ => true
  | .rlyDone _ => true
  | .frameForward i _ _ _ => decide (i < 16)
  | .protocolAnswer i _ => decide (i < 17)
  | .pfcPauseFrame i _ _ => decide (i < 17)
  | .linkDown i => decide (i < 17)
  | .linkUp i => decide (i < 17)
  | .opticalEngineRemovalRequest _ _ => true
  | .opticalEngineRemoved port => decide (port < 2)
  | .opticalEngineInserted port _ => decide (port < 2)
  | .opticalEngineReqClear _ _ => true
  | .ptpEventMessage i _ _ _ _ _ _ => decide (i < 16)
  | .ptpHoldover => true
  | .ppsEdge _ => true
  | .ppsEdgeMissing => true
  | .wtimeCheckpoint => true
  | .droopTrip r _ => decide (r < 64)
  | .ratioStepDown r => decide (r < 64)
  | .floorStretchReport r => decide (r < 64)
  | .ratioStepUp r => decide (r < 64)
  | .clockStartRamp r => decide (r < 64)
  | .clockMonitorWindow d _ _ => decide (d < 72)
  | .regionClockRestart r => decide (r < 64)
  | .rootPllUnlock _ => true
  | .pllLockRetry _ => true
  | .feedUndervoltage _ _ => true
  | .feedOvervoltage _ _ => true
  | .feedReturn _ _ => true
  | .bothFeedsLost => true
  | .feedPresentOpen _ => true
  | .feedRemovalRequest _ _ => true
  | .feedReqClear _ _ => true
  | .regulatorDisconnect g i cause => decide (g < 1024) && decide (i < 4) && decide (cause < 4)
  | .powerMeasure _ => true
  | .powerCapAdjust p => decide (p < 16)
  | .vcoreTrim r => decide (r < 64)
  | .pathResistanceMeasure g _ _ => decide (g < 1024)
  | .gustAdmit r _ _ => decide (r < 64)
  | .powerOnRefused r _ => decide (r < 64)
  | .regionSwitchOff r => decide (r < 64)
  | .standbyReturn _ p => decide (p < 16)
  | .vminClear _ r => decide (r < 64)
  | .sweepStart => true
  | .sweepEnd _ => true
  | .stopConversion r _ => decide (r < 64)
  | .coolingConditionSet i => decide (i < 5)
  | .coolingConditionClear i => decide (i < 5)
  | .thermalLifePersist => true
  | .vaultRefresh c => decide (c < 73728)
  | .vaultScrubRead c _ => decide (c < 73728)
  | .secondPortTimeout c => decide (c < 73728)
  | .eventRecordEntry q => decide (q < 65)
  | .eventPersistBatch => true
  | .evtAck _ _ => true
  | .spoolCardRemovalRequest _ c => decide (c < 2)
  | .spoolCardSafe c => decide (c < 2)
  | .spoolCardReqClear _ c => decide (c < 2)
  | .spoolCardInserted c _ _ _ _ _ _ _ _ _ => decide (c < 2)
  | .spoolRebuildComplete c => decide (c < 2)
  | .spoolCardLost c => decide (c < 2)
  | .spoolScrub c _ _ _ _ _ _ _ _ => decide (c < 2)
  | .governorRecompute c _ _ => decide (c < 2)
  | .governorRefill c => decide (c < 2)
  | .shred _ => true
  | .format _ c => decide (c < 2)
  | .erefReset _ p _ => decide (p < 16)
  | .auxRailUp p0 p1 _ _ _ => decide (p0 < 3) && decide (p1 < 3)
  | .startComplete => true
  | .startRetry _ => true
  | .failsReset => true
  | .doldrumsRetry _ _ _ => true
  | .serviceReset p0 p1 _ _ _ => decide (p0 < 3) && decide (p1 < 3)
  | .stewardRemovalRequest _ => true
  | .stewardSwap _ => true
  | .stewardInserted _ => true
  | .fwActivate _ _ => true
  | .fwRevert _ _ => true
  | .fwConfirm k => decide (1 ≤ k) && decide (k < 7)
  | .fuseOwnerDigest _ _ => true
  | .fuseDebugLock _ _ => true
  | .fuseIsolation _ _ => true
  | .fuseCounterAdvance _ _ _ => true
  | .principalApply _ _ => true
  | .calOpen _ => true
  | .calCommit _ => true
  | .calAbandon _ => true
  | .calStagingTimeout => true
  | .dhcpv4AndSlaac _ _ _ => true
  | .ethernetReferenceRetry port _ => decide (port < 2)
  | .componentRestartDone k => decide (1 ≤ k) && decide (k < 7)
  | .bootFlashRecovery _ _ _ => true
  | .principalBootstrap i _ _ => decide (i < 1024)
  | .svcPresentChange _ => true
  | .vcoreDigitise r _ => decide (r < 64)

end Sys2Proof
end

