-- ==== Sys2Proof/Safety.lean ====
section
/-!
DEFINITION. The terms that statements about the part use: when a core issues and executes a word, when a message is the next
its session has to process, what an answer is, what a command may leave untouched, and the states of the boot record that
are legal.
-/
namespace Sys2Proof.Machine

/-! ### Core instructions -/

/-- Core c issues the word w: it exists and can issue, no plane its engine is due is missing, the I-store bank it fetches from is ON,
the word's parity is good and its opcode op, and neither the word nor the loop it would open is illegal (R35, R81, R82, R86, R111). -/
structure Issues (op c : Nat) (w : DWord) (s : State) : Prop where
  core   : c < 73728
  ready  : s.canIssue c = true
  planes : (s.core c).planeLate = none
  fetch  : s.fetchOn c = true
  parity : parityFails (tget (s.core c).istore 0 (s.core c).pc.toNat) w = false
  opcode : opOf w = op
  legal  : illegalWord w = false
  loop   : badLoop (s.core c) w = false

/-- Start cycle of a word: its predicate, its registers and its unit are free (R84). -/
def Core.startAt (k : Core) (w : DWord) (regs : List Nat) (unit : Nat) : Nat := max (k.regsReady ((96 + fld w 57 55) :: regs)) unit

/-- Core c issues w and its predicate lets the word execute (R83). -/
def Executes (op c : Nat) (w : DWord) (s : State) : Prop := Issues op c w s ∧ ((s.core c).predBits w).getLsbD 0 = true

/-- Core c runs in a DEBUG partition, where the hazard detector reports (R103, R104). -/
def State.debugCore (s : State) (c : Nat) : Prop := ∃ p, s.partOf c = some p ∧ (s.part p).debug = true

/-- Nothing but core c differs between two states; in a DEBUG partition a hazard of its engine may have been reported as
well (R104), with what an event changes. -/
def OnlyCore (c : Nat) (s t : State) : Prop :=
  (∀ d, d ≠ c → t.core d = s.core d)
  ∧ (¬ s.debugCore c → t = { s with cores := t.cores })
  ∧ t = { s with cores := t.cores, clusters := t.clusters, parts := t.parts, evt := t.evt, draws := t.draws
                 eth := { s.eth with sessions := t.eth.sessions } }

/-- Nothing of a core but its registers, its place in the program, its timing and what its engine has latched differs:
its memories, status flags, queues, descriptors, credits and configuration stand. -/
def OnlyRegisters (k l : Core) : Prop :=
  l = { k with s := l.s, a := l.a, v := l.v, p := l.p, pc := l.pc, loops := l.loops, cycle := l.cycle, score := l.score
               beat := l.beat, eng := l.eng }

/-- The core goes on at the next instruction: after it, or at the start of a loop whose body ends here (R86). -/
def Continues (k l : Core) : Prop := (l.pc = BitVec.ofNat 12 ((loopNext k.pc.toNat k.loops).1.getD (k.pc.toNat + 1))) ∧ l.loops = (loopNext k.pc.toNat k.loops).2

/-- RD takes a result; every other scalar and address register, the vector and predicate registers and everything outside the
core's registers stay. s0 reads 0 and an address register keeps bits [19:0] (R76). -/
def WritesSpec (c rd : Nat) (x : Word) (s t : State) : Prop :=
  OnlyCore c s t ∧ OnlyRegisters (s.core c) (t.core c) ∧ Continues (s.core c) (t.core c)
  ∧ (t.core c).v = (s.core c).v ∧ (t.core c).p = (s.core c).p
  ∧ ∀ q, q < 48 → (t.core c).spec q =
      if q = rd then (if rd = 0 then 0 else if rd < 32 then x else BitVec.ofNat 32 (x.toNat % 2 ^ 20)) else (s.core c).spec q

/-- A predicate register takes a value; p0 still reads all ones, and every other register stays. -/
def WritesPredicate (c pd : Nat) (x : BitVec 16) (s t : State) : Prop :=
  OnlyCore c s t ∧ OnlyRegisters (s.core c) (t.core c) ∧ Continues (s.core c) (t.core c)
  ∧ (t.core c).s = (s.core c).s ∧ (t.core c).a = (s.core c).a ∧ (t.core c).v = (s.core c).v
  ∧ ∀ q, q < 8 → (t.core c).preg q = if q = 0 then 0xFFFF else if q = pd then x else (s.core c).preg q

/-- Register rd of core c takes f lane by lane where the mask is 1; every other lane and register stays (R83). -/
def WritesLanes (c rd : Nat) (m : BitVec 16) (f : Nat → Word) (s t : State) : Prop :=
  OnlyCore c s t ∧ OnlyRegisters (s.core c) (t.core c) ∧ Continues (s.core c) (t.core c)
  ∧ (t.core c).s = (s.core c).s ∧ (t.core c).a = (s.core c).a ∧ (t.core c).p = (s.core c).p
  ∧ ∀ q l, q < 32 → l < 16 → (t.core c).vlane q l = if q = rd ∧ m.getLsbD l = true then f l else (s.core c).vlane q l

/-- Bytes bs are stored in core c's pads at a core byte address, modulo m, and no other byte of any pad changes, nor any
byte of any vault. -/
def StoresAt (c addr m : Nat) (bs : List Byte) (s t : State) : Prop :=
  (∀ i, i < bs.length → tget (t.core c).pad 0 ((addr + i) % m) = bs.getD i 0)
  ∧ (∀ a, (∀ i, i < bs.length → a ≠ (addr + i) % m) → tget (t.core c).pad 0 a = tget (s.core c).pad 0 a)
  ∧ (∀ d, d ≠ c → t.core d = s.core d) ∧ t.vaults = s.vaults

/-- Every byte of every pad and vault reads as before. -/
def StoresNothing (s t : State) : Prop := (∀ d, (t.core d).pad = (s.core d).pad) ∧ t.vaults = s.vaults

/-- The pads answer an access to these byte addresses: each lies in a pad, in a bank that is ON (R77, R111). -/
def State.bytesAnswer (s : State) (c : Nat) (addrs : List Nat) : Prop := ∀ a ∈ addrs, accessCause (s.cluster (c / 72)).banks a 1 = none
/-- The pads answer an access of n bytes at an address. -/
def State.padAnswers (s : State) (c addr n : Nat) : Prop := s.bytesAnswer c (linear addr n)

/-- The scalar, address, vector and predicate registers of two core states are the same. -/
def SameRegisters (k l : Core) : Prop := l.s = k.s ∧ l.a = k.a ∧ l.v = k.v ∧ l.p = k.p

/-- Every core but c stands. -/
def OtherCoresStand (c : Nat) (s t : State) : Prop := ∀ d, d ≠ c → t.core d = s.core d

/-! ### Events -/

/-- The count of an event class has risen by 1, or stands at its end (R422). -/
def EventCounted (cls : Nat) (s t : State) : Prop := tget t.evt.counts 0 cls = min (tget s.evt.counts 0 cls + 1) (2 ^ 64 - 1)

/-! ### Messages -/

/-- Message m, of a class and type and with a body of len bytes, is the next that session h has to process; its reserved
fields are 0, the session's role may send it by the interface it came by, and what waits behind it, if anything, is of a class
and type that hosts have (R310, R312, R314, R315, R323, R476). -/
structure Delivered (m : Msg) (cls typ len : Nat) (s : State) (h : Session) : Prop where
  session  : s.session m.ses = some h
  first    : h.ready.head? = some (m.seq, cls, typ)
  length   : m.len = len
  reserved : m.rsv = 0
  allowed  : h.maySend m.iface cls = true
  behind   : awayOf h.ready.tail = 0

/-- The state once message m has been taken from session h for processing. -/
def State.taken (s : State) (m : Msg) (h : Session) : State :=
  (s.setSession m.ses { h with ready := h.ready.tail }).rxTake m.ses m.seq

/-- The last message the device has made for m's session is the reply to m, with a status and a body (R312, R323). -/
def Answered (t : State) (m : Msg) (cls typ status : Nat) (body : List Byte) : Prop :=
  ∃ h o, t.session m.ses = some h ∧ h.tx.getLast? = some o ∧ o.reply = true ∧ o.cls = cls ∧ o.typ = typ ∧ o.corr = m.seq
    ∧ o.status = status ∧ o.part = m.part ∧ o.body = body

/-- Body of the reply to a REG_WRITE of one word that counts in DONE (R327). -/
def wroteOne (addr : Nat) : List Byte := beBytes 4 addr ++ beBytes 2 1 ++ beBytes 2 0

/-! ### Invariants -/

/-- The boot record is legal: DEV_START shows one of its five states, FAILS is at most 3, the four anti-rollback counters
hold at most 64 each, and SVC_3V3 is driven exactly while the service cable is present (R440, R448, R459, R469). -/
def State.BootLegal (s : State) : Prop :=
  s.boot.start ≤ 4 ∧ s.boot.fails ≤ 3 ∧ s.boot.rb.length = 4 ∧ (∀ n ∈ s.boot.rb, n ≤ 64) ∧ s.boot.svcPower = s.boot.svcPresent

/-- Fuses blown in s are blown in t: the owner digest, the two locks, and each counter at least as high (R448). -/
def FusesKept (s t : State) : Prop :=
  (s.boot.owner.isSome → t.boot.owner = s.boot.owner) ∧ (s.boot.debugLock = true → t.boot.debugLock = true)
    ∧ (s.boot.isolate = true → t.boot.isolate = true) ∧ ∀ i, s.boot.rb.getD i 0 ≤ t.boot.rb.getD i 0

/-- The regions that are unusable do not by themselves make a start fail: not both 27 and 36, and not more than 8 (R439). -/
def State.startable (s : State) : Prop :=
  ¬((s.region 27).agt.unusable = true ∧ (s.region 36).agt.unusable = true)
    ∧ (startOrder.filter fun r => (s.region r).agt.unusable).length ≤ 8

/-- Every pad and every vault is in canonical form. -/
def State.MemoryCanonical (s : State) : Prop :=
  ∀ c, Memory.wf (s.core c).pad = true ∧ Memory.wf (s.vault c).data = true

end Sys2Proof.Machine
end

