-- ==== Sys2Proof/Certificates/Slice0/Obligations.lean ====
section
/-!
DEFINITION. The statements for the provers. Each formalises rules of spec/ on the model; a clause that rests on a choice of the
model names its entry of the assumption log.
-/
open Sys2Proof
open Sys2Proof.Machine

/-! ### The part as a whole -/

/-- The command at the front of the queue runs on the state with the rest of the queue. With no command waiting, WTIME counts one tick and
nothing else changes: the model's choice for an idle step (assumption 5); that WTIME is 64 bits wide is R364. -/
def Obligations.StepRunsQueue : Prop :=
  (∀ (c : Instr) (rest : List Instr) (s : State), s.pending = c :: rest → step s = exec c { s with pending := rest })
  ∧ (∀ s : State, s.pending = [] → step s = .next { s with clk := { s.clk with wtime := (s.clk.wtime + 1) % 2 ^ 64 } })

/-- A command whose units all exist always answers a next state, and one that names a unit that does not exist always stops
with that fault: no data, mode or message ends a run. -/
def Obligations.ExistingUnitsNeverStop : Prop :=
  ∀ (i : Instr) (s : State), (i.wf = true → ∃ t, exec i s = .next t) ∧ (i.wf = false → exec i s = .fault .noSuchUnit)

/-- Register values that the register tables give for reset; and at reset the boot record is legal, every memory canonical, and no command
waits. -/
def Obligations.ResetState : Prop :=
  (State.reset.boot.start = 0 ∧ State.reset.boot.autoload = true ∧ State.reset.boot.fails = 0
    ∧ (∀ r, (State.reset.region r).clk.k = 0 ∧ (State.reset.region r).clk.kFloor = 8 ∧ (State.reset.region r).clk.minK = 0x10
        ∧ (State.reset.region r).pwr.state = 0 ∧ (State.reset.region r).pwr.vmin = 0x3FF ∧ (State.reset.region r).net.closed = 0xF)
    ∧ (∀ u, (State.reset.cluster u).gate = 0x1F ∧ (State.reset.cluster u).scrub = 0x08 ∧ (State.reset.cluster u).minSpare = 8
        ∧ (State.reset.cluster u).remap = 0xFFFFFFFF)
    ∧ (∀ p, (State.reset.part p).state = .empty ∧ (State.reset.part p).sched = 0x00010404 ∧ (State.reset.part p).decayEn = true)
    ∧ State.reset.srv.histTtl = 0xA8 ∧ State.reset.srv.resultTtl = 0x3C ∧ State.reset.evt.rate = 16
    ∧ State.reset.eth.cfg = 0x00030000 ∧ State.reset.eth.ptp = 0x140 ∧ State.reset.eth.bypass = true
    ∧ State.reset.spl.govEn = true ∧ State.reset.spl.lifeY = 7 ∧ State.reset.spl.scrubDays = 7
    ∧ (∀ c, (State.reset.card c).state = 0 ∧ (State.reset.card c).aX100 = 0xD2)
    ∧ State.reset.thm.period = 10 ∧ (∀ g, (State.reset.grp g).limit = 24 ∧ (State.reset.grp g).ok = 0xF))
  ∧ (State.reset.BootLegal ∧ State.reset.MemoryCanonical ∧ State.reset.pending = [])

/-- Whatever command runs, from whatever state: a legal boot record stays legal. -/
def Obligations.BootRecordStaysLegal : Prop :=
  ∀ s t : State, s.BootLegal → step s = .next t → t.BootLegal

/-- Whatever command runs, from whatever state: no fuse that is blown returns to 0. -/
def Obligations.FusesNeverReturn : Prop :=
  ∀ s t : State, step s = .next t → FusesKept s t

/-- Whatever command runs: the pads and vaults stay in canonical form. -/
def Obligations.MemoryStaysCanonical : Prop :=
  ∀ s t : State, s.MemoryCanonical → step s = .next t → t.MemoryCanonical

/-! ### Core instructions: control and scalar -/

/-- NOP, JMP, LOOP and LOOPS that execute (R86, R87, R89, R90); END, its completion, and HALT (R90). -/
def Obligations.ControlInstructions : Prop :=
  (∀ (c : Nat) (w : DWord) (s : State),
      (Executes 0x00 c w s → ∃ t, exec (.nop c w) s = .next t ∧ OnlyCore c s t ∧ OnlyRegisters (s.core c) (t.core c)
        ∧ Continues (s.core c) (t.core c) ∧ (t.core c).cycle = (s.core c).startAt w [] 0 + fld w 11 0 + 1
        ∧ (t.core c).s = (s.core c).s ∧ (t.core c).a = (s.core c).a ∧ (t.core c).v = (s.core c).v ∧ (t.core c).p = (s.core c).p)
      ∧ (Executes 0x03 c w s → ∃ t, exec (.jmp c w) s = .next t ∧ OnlyCore c s t ∧ OnlyRegisters (s.core c) (t.core c)
        ∧ (t.core c).pc = BitVec.ofNat 12 (fld w 53 42) ∧ (t.core c).cycle = (s.core c).startAt w [] 0 + 2
        ∧ (t.core c).loops = (s.core c).loops.filter fun e => decide (e.first ≤ fld w 53 42) && decide (fld w 53 42 ≤ e.last))
      ∧ (Executes 0x04 c w s → ∃ t, exec (.loop c w) s = .next t ∧ OnlyCore c s t ∧ OnlyRegisters (s.core c) (t.core c)
        ∧ (t.core c).pc = BitVec.ofNat 12 ((s.core c).pc.toNat + 1)
        ∧ (t.core c).loops = ⟨(s.core c).pc.toNat + 1, fld w 53 42, fld w 15 0, 0⟩ :: (s.core c).loops)
      ∧ (Executes 0x05 c w s → ∃ t, exec (.loops c w) s = .next t
        ∧ (((s.core c).sreg (fld w 41 37)).toNat ≤ 65536 → OnlyCore c s t ∧ OnlyRegisters (s.core c) (t.core c))
        ∧ (∀ p, (s.core c).eng = [] → 65536 < ((s.core c).sreg (fld w 41 37)).toNat → s.partOf c = some p → (s.part p).debug = true →
            (s.part p).hazMask.getLsbD 6 = false → EventCounted 0x0C s t)
        ∧ (t.core c).cycle = (s.core c).startAt w [fld w 41 37] 0 + 1
        ∧ (if ((s.core c).sreg (fld w 41 37)).toNat = 0 then
            (t.core c).pc = BitVec.ofNat 12 (fld w 53 42 + 1) ∧ (t.core c).loops = (s.core c).loops
          else (t.core c).pc = BitVec.ofNat 12 ((s.core c).pc.toNat + 1)
            ∧ (t.core c).loops = ⟨(s.core c).pc.toNat + 1, fld w 53 42, min ((s.core c).sreg (fld w 41 37)).toNat 65536 - 1, 0⟩
                :: (s.core c).loops)))
  ∧ (∀ (c : Nat) (w : DWord) (s : State),
      (Executes 0x01 c w s → ∃ t, exec (.endRun c w) s = .next t ∧ OnlyCore c s t ∧ (t.core c).wait = .endRun
        ∧ (t.core c).run = .running ∧ Continues (s.core c) (t.core c))
      ∧ (c < 73728 → (s.core c).run = .running → (s.core c).wait = .endRun → (s.core c).engDrained = true → (s.core c).vq = []
        → (s.core c).desc = [] → (s.core c).lputs = [] → (s.core c).sends = []
        → ∃ t, exec (.endComplete c) s = .next t ∧ OnlyCore c s t ∧ t.core c = { s.core c with run := .ended, wait := .none })
      ∧ (Executes 0x02 c w s → ∃ t, exec (.halt c w) s = .next t ∧ (t.core c).run = .halted ∧ (t.core c).pc = (s.core c).pc
        ∧ (t.region (regionOf c)).agt.notes = (s.region (regionOf c)).agt.notes ++ [(s.core c).pc.toNat]))

/-- ADD, SUB, MUL, AND, OR, XOR, SHF and LDI that execute, PCMP and PLOG by sub-operation, MFSR of the numbered special registers that hold
core state, and MTSR (R76, R90, R101). -/
def Obligations.ScalarInstructionResults : Prop :=
  (∀ (c : Nat) (w : DWord) (s : State), let a := (s.core c).spec (fld w 47 42); let b := (s.core c).op2 w; let rd := fld w 53 48
      (Executes 0x06 c w s → ∃ t, exec (.add c w) s = .next t ∧ WritesSpec c rd (a + b) s t)
      ∧ (Executes 0x07 c w s → ∃ t, exec (.sub c w) s = .next t ∧ WritesSpec c rd (a - b) s t)
      ∧ (Executes 0x08 c w s → ∃ t, exec (.mul c w) s = .next t ∧ WritesSpec c rd (a * b) s t)
      ∧ (Executes 0x09 c w s → ∃ t, exec (.and c w) s = .next t ∧ WritesSpec c rd (a &&& b) s t)
      ∧ (Executes 0x0A c w s → ∃ t, exec (.or c w) s = .next t ∧ WritesSpec c rd (a ||| b) s t)
      ∧ (Executes 0x0B c w s → ∃ t, exec (.xor c w) s = .next t ∧ WritesSpec c rd (a ^^^ b) s t)
      ∧ (Executes 0x0C c w s → fld w 34 32 = 0 → ∃ t, exec (.shf c w) s = .next t ∧ WritesSpec c rd (a <<< (b.toNat % 32)) s t)
      ∧ (Executes 0x0C c w s → fld w 34 32 = 1 → ∃ t, exec (.shf c w) s = .next t ∧ WritesSpec c rd (a >>> (b.toNat % 32)) s t)
      ∧ (Executes 0x0C c w s → fld w 34 32 = 2 → ∃ t, exec (.shf c w) s = .next t ∧ WritesSpec c rd (a.sshiftRight (b.toNat % 32)) s t)
      ∧ (Executes 0x0D c w s → ∃ t, exec (.ldi c w) s = .next t ∧ WritesSpec c rd (BitVec.ofNat 32 (fld w 31 0)) s t))
  ∧ (∀ (c : Nat) (w : DWord) (s : State), let a := (s.core c).spec (fld w 47 42); let b := (s.core c).op2 w
      let pa := (s.core c).preg (fld w 44 42); let pb := (s.core c).preg (fld w 38 36); let pd := fld w 50 48
      let all := fun (x : Bool) => if x then (0xFFFF : BitVec 16) else 0
      (Executes 0x0E c w s → ∃ t, exec (.pcmp c w) s = .next t
        ∧ (fld w 34 32 = 0 → WritesPredicate c pd (all (decide (a = b))) s t)
        ∧ (fld w 34 32 = 1 → WritesPredicate c pd (all (decide (a ≠ b))) s t)
        ∧ (fld w 34 32 = 2 → WritesPredicate c pd (all (decide (a.toInt < b.toInt))) s t)
        ∧ (fld w 34 32 = 3 → WritesPredicate c pd (all (decide (a.toNat < b.toNat))) s t)
        ∧ (fld w 34 32 = 4 → WritesPredicate c pd (all (decide (a.toInt ≥ b.toInt))) s t)
        ∧ (fld w 34 32 = 5 → WritesPredicate c pd (all (decide (a.toNat ≥ b.toNat))) s t))
      ∧ (Executes 0x0F c w s → ∃ t, exec (.plog c w) s = .next t
        ∧ (fld w 34 32 = 0 → WritesPredicate c pd (pa &&& pb) s t)
        ∧ (fld w 34 32 = 1 → WritesPredicate c pd (pa ||| pb) s t)
        ∧ (fld w 34 32 = 2 → WritesPredicate c pd (pa &&& ~~~pb) s t)
        ∧ (fld w 34 32 = 3 → WritesPredicate c pd (~~~pa) s t)
        ∧ (fld w 34 32 = 4 → WritesPredicate c pd (BitVec.ofNat 16 (fld w 15 0)) s t)))
  ∧ (∀ (c : Nat) (w : DWord) (s : State), let i := fld w 11 0; let rd := fld w 53 48
      (Executes 0x10 c w s → ∃ t, exec (.mfsr c w) s = .next t
        ∧ (i = 0x002 → WritesSpec c rd ((s.core c).flagsAt ((s.core c).startAt w [rd] 0)).estat s t)
        ∧ (i = 0x003 → WritesSpec c rd (s.core c).unf s t)
        ∧ (i = 0x004 → WritesSpec c rd (BitVec.ofNat 32 ((s.core c).startAt w [rd] 0 - (s.core c).frameStart)) s t)
        ∧ (i = 0x006 → WritesSpec c rd (BitVec.ofNat 32 (s.core c).frameNo) s t)
        ∧ (i = 0x00D → WritesSpec c rd (BitVec.ofNat 32 ((s.core c).startAt w [rd] 0)) s t)
        ∧ (0x010 ≤ i → i ≤ 0x03F → WritesSpec c rd (BitVec.ofNat 32 ((s.core c).circOf (i / 16 - 1) (i % 16)).fill) s t)
        ∧ (i = 0x041 → WritesSpec c rd (s.core c).lastFlag s t))
      ∧ (Executes 0x11 c w s → i = 0x003 → ∃ t, exec (.mtsr c w) s = .next t ∧ OnlyCore c s t ∧ (t.core c).unf = 0
        ∧ Continues (s.core c) (t.core c) ∧ (t.core c).s = (s.core c).s ∧ (t.core c).a = (s.core c).a ∧ (t.core c).pad = (s.core c).pad)
      ∧ (Executes 0x11 c w s → i ≠ 0x003 → i ≠ 0x7F0 → ∃ t, exec (.mtsr c w) s = .next t ∧ OnlyCore c s t
        ∧ OnlyRegisters (s.core c) (t.core c) ∧ Continues (s.core c) (t.core c) ∧ (t.core c).s = (s.core c).s ∧ (t.core c).a = (s.core c).a))

/-- A word whose predicate is false changes nothing but its core's place and time, and what the engine has latched by then, for the register
instructions (R83). A word that meets an illegal encoding, or a loop that breaks the rules, halts its core with class 0x08; one
whose parity fails with class 0x0A (R81). -/
def Obligations.WordsThatDoNotExecute : Prop :=
  (∀ (c : Nat) (w : DWord) (s : State), ((s.core c).predBits w).getLsbD 0 = false →
      let skips := fun (i : Instr) => ∃ t, exec i s = .next t ∧ OnlyCore c s t ∧ OnlyRegisters (s.core c) (t.core c)
        ∧ Continues (s.core c) (t.core c) ∧ (t.core c).s = (s.core c).s ∧ (t.core c).a = (s.core c).a ∧ (t.core c).v = (s.core c).v
        ∧ (t.core c).p = (s.core c).p
      (Issues 0x03 c w s → skips (.jmp c w)) ∧ (Issues 0x06 c w s → skips (.add c w)) ∧ (Issues 0x0D c w s → skips (.ldi c w))
      ∧ (Issues 0x0E c w s → skips (.pcmp c w)) ∧ (Issues 0x10 c w s → skips (.mfsr c w)) ∧ (Issues 0x29 c w s → ∀ es, skips (.ld c w es))
      ∧ (Issues 0x2A c w s → ∀ es, skips (.st c w es)) ∧ (Issues 0x38 c w s → skips (.bar c w)) ∧ (Issues 0x3D c w s → skips (.evt c w)))
  ∧ (∀ (c : Nat) (w : DWord) (s : State), c < 73728 → s.canIssue c = true → (s.core c).planeLate = none → s.fetchOn c = true → opOf w = 0x06 →
      (parityFails (tget (s.core c).istore 0 (s.core c).pc.toNat) w = true
        → exec (.add c w) s = .next (s.haltCore c 0x0A w) ∧ ((s.haltCore c 0x0A w).core c).run = .halted)
      ∧ (parityFails (tget (s.core c).istore 0 (s.core c).pc.toNat) w = false → illegalWord w = true
        → exec (.add c w) s = .next (s.haltCore c 0x08 w) ∧ ((s.haltCore c 0x08 w).core c).run = .halted))

/-! ### Core instructions: vectors, conversions, movement -/

/-- The lane-wise arithmetic instructions, for every word that issues: the lanes its predicate allows take the result, the others stay; VCMP,
VSEL, VRED and VBCST (R83, R93, R95). -/
def Obligations.VectorInstructionLanes : Prop :=
  (∀ (c : Nat) (w : DWord) (s : State), let k := s.core c; let m := (s.core c).predBits w; let rd := fld w 53 49
      let x := fun l => k.vlane (fld w 48 44) l; let y := fun l => k.vlane (fld w 43 39) l; let z := fun l => k.vlane (fld w 38 34) l
      (Issues 0x16 c w s → ∃ t, exec (.vadd c w) s = .next t ∧ WritesLanes c rd m (fun l => fAdd (x l) (y l)) s t)
      ∧ (Issues 0x17 c w s → ∃ t, exec (.vsub c w) s = .next t ∧ WritesLanes c rd m (fun l => fSub (x l) (y l)) s t)
      ∧ (Issues 0x18 c w s → ∃ t, exec (.vmul c w) s = .next t ∧ WritesLanes c rd m (fun l => fMul (x l) (y l)) s t)
      ∧ (Issues 0x19 c w s → ∃ t, exec (.vfma c w) s = .next t ∧ WritesLanes c rd m (fun l => fFma (x l) (y l) (z l)) s t)
      ∧ (Issues 0x1A c w s → ∃ t, exec (.vmax c w) s = .next t ∧ WritesLanes c rd m (fun l => fPick true (x l) (y l)) s t)
      ∧ (Issues 0x1B c w s → ∃ t, exec (.vmin c w) s = .next t ∧ WritesLanes c rd m (fun l => fPick false (x l) (y l)) s t)
      ∧ (Issues 0x1C c w s → ∃ t, exec (.vexp c w) s = .next t ∧ WritesLanes c rd m (fun l => fExp (x l)) s t)
      ∧ (Issues 0x1D c w s → ∃ t, exec (.vrcp c w) s = .next t ∧ WritesLanes c rd m (fun l => fRcp (x l)) s t)
      ∧ (Issues 0x1E c w s → ∃ t, exec (.vrsq c w) s = .next t ∧ WritesLanes c rd m (fun l => fRsq (x l)) s t)
      ∧ (Issues 0x1F c w s → ∃ t, exec (.vact c w) s = .next t ∧ WritesLanes c rd m (fun l => fAct (fld w 30 27) (x l)) s t))
  ∧ (∀ (c : Nat) (w : DWord) (s : State), let k := s.core c; let m := (s.core c).predBits w; let rd := fld w 53 49
      let x := fun l => k.vlane (fld w 48 44) l; let y := fun l => k.vlane (fld w 43 39) l; let ps := fld w 33 31
      (Issues 0x20 c w s → ∃ t, exec (.vcmp c w) s = .next t ∧ OnlyCore c s t ∧ Continues k (t.core c)
        ∧ (t.core c).s = k.s ∧ (t.core c).a = k.a ∧ (t.core c).v = k.v ∧ (t.core c).pad = k.pad
        ∧ (∀ q, q < 8 → q ≠ ps → (t.core c).preg q = k.preg q)
        ∧ (ps ≠ 0 → ∀ l, l < 16 → ((t.core c).preg ps).getLsbD l =
            if m.getLsbD l then fCmp (fld w 30 27) (x l) (y l) else (k.preg ps).getLsbD l))
      ∧ (Issues 0x21 c w s → ∃ t, exec (.vsel c w) s = .next t
        ∧ WritesLanes c rd m (fun l => if (k.preg ps).getLsbD l then x l else y l) s t)
      ∧ (Issues 0x22 c w s → ∃ t, exec (.vred c w) s = .next t ∧ WritesLanes c rd m (fun _ => vred (fld w 30 27) m x) s t)
      ∧ (Issues 0x23 c w s → ∃ t, exec (.vbcst c w) s = .next t
        ∧ WritesLanes c rd m (fun _ => if fld w 30 27 = 0 then k.sreg (fld w 43 39) else x (fld w 37 34)) s t))

/-- No arithmetic result is subnormal, and the only NaN is 0x7FC0_0000 (R93). -/
def Obligations.VectorResultsAreCanonical : Prop :=
  ∀ x y z : Word,
    let ok := fun (r : Word) => ¬(r.toNat / 2 ^ 23 % 256 = 0 ∧ r.toNat % 2 ^ 23 ≠ 0)
      ∧ (r.toNat / 2 ^ 23 % 256 = 255 ∧ r.toNat % 2 ^ 23 ≠ 0 → r = 0x7FC00000)
    ok (fAdd x y) ∧ ok (fSub x y) ∧ ok (fMul x y) ∧ ok (fFma x y z)

/-- Conversions that execute where the banks are ON, on the pads as they stand at the start cycle: VCVA, VCVM and VQKV write their results to the pads; VCVF and VDQP write the values of the
format into CNT registers and change no memory (R54, R56, R59, R64, R78, R85, R95). -/
def Obligations.ConversionsAndPads : Prop :=
  (∀ (c : Nat) (w : DWord) (entry : Nat) (s : State), let k := s.core c; let n := fld w 36 32
      let a56 := toEngine (k.lanes (fld w 53 49) n) (s.eFix c entry)
      let d56 := inPad 1 ((k.areg (fld w 48 45)).toNat / 64 * 64)
      let blocks := (List.range n).map fun i => mxBlock (fld w 40 37) (k.lanes (fld w 53 49 + 2 * i) 2)
      let dm := (k.areg (fld w 48 45)).toNat; let dx := (k.areg (fld w 44 41)).toNat
      let t27 := k.startAt w (vGroup (fld w 53 49) 8 ++ [32 + fld w 48 45, 32 + fld w 44 41] ++ [fld w 31 27]) 0
      let q := kvQuant (fld w 40 37) (k.lanes (fld w 53 49) 8) ((chunks 2 128 (k.bytesAt t27 dx 256)).map leNat)
      (Executes 0x24 c w s → s.bytesAnswer c (d56 :: padWrap 0 0x20000 d56 a56.ints.length) → ∃ t, exec (.vcva c w entry) s = .next t ∧ StoresAt c d56 0x20000 a56.ints s t
        ∧ tget (t.core c).shadow 0 (d56 / 64) = BitVec.ofNat 8 a56.exp ∧ (t.core c).bxo = (k.bxo || a56.ovf)
        ∧ Continues k (t.core c) ∧ (t.core c).s = k.s ∧ (t.core c).a = k.a ∧ (t.core c).v = k.v ∧ (t.core c).p = k.p)
      ∧ (Executes 0x25 c w s → s.padAnswers c dm (blocks.flatMap (·.1)).length → ∃ t, exec (.vcvm c w) s = .next t
        ∧ StoresAt c dm 0x100000 (blocks.flatMap (·.1)) s t
        ∧ Continues k (t.core c) ∧ (t.core c).s = k.s ∧ (t.core c).a = k.a ∧ (t.core c).v = k.v ∧ (t.core c).p = k.p)
      ∧ (Executes 0x27 c w s → s.padAnswers c dx 256 → s.padAnswers c dm q.1.length
        → ∃ t, exec (.vqkv c w []) s = .next t ∧ (∀ d, d ≠ c → t.core d = s.core d)
          ∧ (t.core c).pad = ((k.putAt (linear dx 256) (q.2.2.1.flatMap (leBytes 2))).putAt (linear dm q.1.length) q.1).pad
          ∧ (fld w 31 27 ≠ 0 → (t.core c).sreg (fld w 31 27) = BitVec.ofNat 32 q.2.1) ∧ Continues k (t.core c) ∧ (t.core c).a = k.a
          ∧ (t.core c).v = k.v ∧ (t.core c).p = k.p))
  ∧ (∀ (c : Nat) (w : DWord) (s : State), let k := s.core c; let n := fld w 36 32; let rd := fld w 53 49
      let a := (k.areg (fld w 48 45)).toNat; let f := fld w 40 37; let ap := padWrap 0x50000 0x10000 (inPad 2 a) (64 * n)
      let k26 := k.padAt (k.startAt w ([32 + fld w 48 45] ++ vGroup rd n) 0)
      let k28 := k.padAt (k.startAt w ([32 + fld w 48 45, fld w 31 27, fld w 26 22] ++ vGroup rd n) 0)
      let xs := (vcvfVals f n (k26.bytes a (vcvfBytes f n)) (tget k26.shadow 0 (a % 0x20000 / 64)).toNat).1
      let bs := ap.map fun x => tget k28.pad 0 x
      let ys := (chunks 4 (16 * n) bs).map fun b => dequant (i32 (BitVec.ofNat 32 (leNat b))) ((k.sreg (fld w 31 27)).toNat % 65536)
        (BitVec.ofNat 16 (k.sreg (fld w 26 22)).toNat).toInt
      (Executes 0x26 c w s → s.padAnswers c a (vcvfBytes f n) → ∃ t, exec (.vcvf c w []) s = .next t ∧ StoresNothing s t
        ∧ (t.core c).v = (k.putLanes rd xs).v ∧ Continues k (t.core c) ∧ (t.core c).s = k.s ∧ (t.core c).a = k.a ∧ (t.core c).p = k.p)
      ∧ (Executes 0x28 c w s → s.bytesAnswer c ap → ∃ t, exec (.vdqp c w []) s = .next t ∧ StoresNothing s t
        ∧ (t.core c).v = (k.putLanes rd ys).v ∧ Continues k (t.core c) ∧ (t.core c).s = k.s ∧ (t.core c).a = k.a ∧ (t.core c).p = k.p))

/-- LD and LDV that execute, aligned or not, where the bank is ON and no check error is met: the register takes the bytes the pad
holds at the start cycle, from the aligned address; AB is updated as AM says, and no memory changes (R77, R80, R85, R97). -/
def Obligations.LoadsReadThePad : Prop :=
  ∀ (c : Nat) (w : DWord) (s : State), let k := s.core c; let rd := fld w 53 48
    let a := mAddr k w / mSize w * mSize w; let av := mAddr k w / mvSize w * mvSize w
    let bs := fun (reg : Nat) => k.bytesAt (k.startAt w ([32 + fld w 47 44] ++ [reg]) k.moveFree)
    let ab := fun (t : State) => (t.core c).areg (fld w 47 44) =
      if fld w 43 42 = 0 then k.areg (fld w 47 44) else BitVec.ofNat 20 ((k.areg (fld w 47 44)).toNat + fld w 39 20)
    (Executes 0x29 c w s → s.padAnswers c a (mSize w) → ∃ t, exec (.ld c w []) s = .next t ∧ StoresNothing s t
      ∧ (∀ d, d ≠ c → t.core d = s.core d) ∧ Continues k (t.core c) ∧ (t.core c).v = k.v ∧ (t.core c).p = k.p
      ∧ (rd < 32 → ab t) ∧ (0 < rd → rd < 32 → (t.core c).sreg rd = BitVec.ofNat 32 (leNat (bs rd a (mSize w))))
      ∧ (32 ≤ rd → (t.core c).areg (rd - 32) = BitVec.ofNat 20 (leNat (bs rd a (mSize w)))))
    ∧ (Executes 0x2B c w s → s.padAnswers c av (mvSize w) → ∃ t, exec (.ldv c w []) s = .next t ∧ StoresNothing s t
      ∧ (∀ d, d ≠ c → t.core d = s.core d) ∧ Continues k (t.core c) ∧ (t.core c).s = k.s ∧ (t.core c).p = k.p ∧ ab t
      ∧ ∀ l, l < 16 → (t.core c).vlane (fld w 52 48) l =
        (let x := leNat (bs (64 + fld w 52 48) av (mvSize w)); if fld w 41 40 = 0 then BitVec.ofNat 32 (x / 2 ^ (32 * l)) else bfToF (x / 2 ^ (16 * l))))

/-- ST, STV and PCPY that execute where the banks are ON store exactly their bytes, at the aligned address (R77, R80, R97). A copy whose
source and destination overlap leaves the destination open: the bytes are then free (`Config.pcpyOverlap`). A store that meets a
bank that is not ON, or the reserved range, writes no byte of any memory (R77, R111). -/
def Obligations.StoresWriteThePad : Prop :=
  (∀ (c : Nat) (w : DWord) (s : State), let k := s.core c
      let a := mAddr k w / mSize w * mSize w; let av := mAddr k w / mvSize w * mvSize w
      let vs := (List.range 16).flatMap fun l => if fld w 41 40 = 0 then leBytes 4 (k.vlane (fld w 52 48) l).toNat
        else leBytes 2 (fToBf (k.vlane (fld w 52 48) l))
      let n := (fld w 19 8 + 1) * 64; let src := ((k.areg (fld w 47 44)).toNat + fld w 39 20) % 0x100000
      let dst := (k.areg (fld w 51 48)).toNat
      let bs := k.bytesAt (k.startAt w [32 + fld w 51 48, 32 + fld w 47 44] k.moveFree) src n
      (Executes 0x2A c w s → s.padAnswers c a (mSize w) → ∃ t, exec (.st c w []) s = .next t
        ∧ StoresAt c a 0x100000 (leBytes (mSize w) (k.spec (fld w 53 48)).toNat) s t ∧ Continues k (t.core c) ∧ (t.core c).s = k.s
        ∧ (t.core c).v = k.v ∧ (t.core c).p = k.p)
      ∧ (Executes 0x2C c w s → s.padAnswers c av vs.length → ∃ t, exec (.stv c w) s = .next t ∧ StoresAt c av 0x100000 vs s t
        ∧ Continues k (t.core c) ∧ (t.core c).s = k.s ∧ (t.core c).v = k.v ∧ (t.core c).p = k.p)
      ∧ (Executes 0x2D c w s → s.padAnswers c src n → s.padAnswers c dst n → ∃ t, exec (.pcpy c w []) s = .next t
        ∧ StoresAt c dst 0x100000 (if src < dst + n ∧ dst < src + n then (List.range n).map fun i => Config.pcpyOverlap src dst n i
            else bs) s t
        ∧ Continues k (t.core c) ∧ (t.core c).s = k.s ∧ (t.core c).a = k.a ∧ (t.core c).v = k.v ∧ (t.core c).p = k.p))
  ∧ (∀ (c : Nat) (w : DWord) (s : State), Executes 0x2A c w s →
      ¬s.padAnswers c (mAddr (s.core c) w / mSize w * mSize w) (mSize w) → ∃ t, exec (.st c w []) s = .next t ∧ StoresNothing s t)

/-! ### Core instructions: the engine -/

/-- EMM and EMMR that execute: at their start cycle one operation joins the engine, with the parameters of R91; the engine is next free
b × V cycles later; AA and PA take their post-increments (R30, R31, R80, R91). An EMMR of count 0 issues nothing. A plane that is
not in the W-pad when it is due leaves the core where it stands (R35). -/
def Obligations.EngineOperationIssues : Prop :=
  (∀ (c : Nat) (w : DWord) (f : List EngFault) (s : State), let k := s.core c
      let t0 := k.startAt w (emmReads w ++ emmWrites w) k.engFree
      let issued := fun (t : State) => ((t.core c).eng.getLast?.map fun o => { o with latched := [], cur := ⟨[], 0, []⟩ }) = some (emmOp k w f t0)
        ∧ (t.core c).eng.length = k.eng.length + 1 ∧ (t.core c).engFree = t0 + widBits (fld w 53 51) * emmV k w
        ∧ (∀ r, (t.core c).areg r = (emmInc k w).areg r) ∧ (t.core c).s = k.s ∧ (t.core c).v = k.v ∧ (t.core c).p = k.p
        ∧ (t.core c).cycle = t0 + 1 ∧ Continues k (t.core c) ∧ OtherCoresStand c s t ∧ StoresNothing s t
      (Executes 0x12 c w s → ∃ t, exec (.emm c w f) s = .next t ∧ issued t)
      ∧ (Executes 0x13 c w s → k.sreg (fld w 40 36) ≠ 0 → ∃ t, exec (.emmr c w f) s = .next t ∧ issued t)
      ∧ (Executes 0x13 c w s → k.sreg (fld w 40 36) = 0 → ∃ t, exec (.emmr c w f) s = .next t ∧ OnlyCore c s t
        ∧ (t.core c).engFree = k.engFree ∧ (t.core c).eng.length = k.eng.length ∧ SameRegisters k (t.core c) ∧ Continues k (t.core c))
      ∧ (∀ d, c < 73728 → s.canIssue c = true → k.planeLate = some d → d ≤ t0 → ∃ t, exec (.emm c w f) s = .next t
        ∧ OnlyCore c s t ∧ t.core c = { k with cycle := max k.cycle (d + 1), beat := true }))
  ∧ (∀ (k : Core) (w : DWord) (f : List EngFault) (t0 : Nat), let o := emmOp k w f t0
      (opOf w = 0x12 → o.v = fld w 43 36 + 1) ∧ (opOf w = 0x13 → o.v = min (k.sreg (fld w 40 36)).toNat 256)
      ∧ (1 ≤ o.b ∧ o.b ≤ 8 ∧ o.fold = fld w 50 48 ∧ o.wreg = fld w 47 44 ∧ o.acc = fbit w 19)
      ∧ (o.stride = (fld w 31 26 + 1) * 64 ∧ o.aAddr % 64 = 0 ∧ o.pAddr % 4 = 0)
      ∧ (o.eref = (BitVec.ofNat 16 (k.sreg (fld w 18 14)).toNat).toInt)
      ∧ (fld w 13 9 = 0 → o.rmask = BitVec.allOnes 64)
      ∧ (fld w 13 9 ≠ 0 → fld w 13 9 < 31 → ∀ i, i < 64 → o.rmask.getLsbD i =
          if i < 32 then (k.sreg (fld w 13 9)).getLsbD i else (k.sreg (fld w 13 9 + 1)).getLsbD (i - 32))
      ∧ (fld w 8 4 = 0 → o.cmask = BitVec.allOnes 64)
      ∧ (fld w 8 4 ≠ 0 → fld w 8 4 < 31 → ∀ i, i < 64 → o.cmask.getLsbD i =
          if i < 32 then (k.sreg (fld w 8 4)).getLsbD i else (k.sreg (fld w 8 4 + 1)).getLsbD (i - 32)))

/-- Alignment of one output, case by case (R41): the contribution, the saturated sum, and the flags. -/
def Obligations.AlignmentOfOneOutput : Prop :=
  ∀ (x e old : Int) (acc : Bool), let r := alignOut x e acc old
    let base := if acc then old else 0
    let clamp := fun (y : Int) => if y > 0x7FFFFFFF then 0x7FFFFFFF else if y < -0x80000000 then -0x80000000 else y
    let beyond := fun (y : Int) => decide (y > 0x7FFFFFFF ∨ y < -0x80000000)
    (e > 15 → x > 0 → r.val = clamp (base + 0x7FFFFFFF) ∧ r.bxo = true ∧ r.sat = beyond (base + 0x7FFFFFFF))
    ∧ (e > 15 → x < 0 → r.val = clamp (base - 0x80000000) ∧ r.bxo = true ∧ r.sat = beyond (base - 0x80000000))
    ∧ (e > 15 → x = 0 → r.val = clamp base ∧ r.bxo = false ∧ r.unf = false)
    ∧ (0 ≤ e → e ≤ 15 → r.val = clamp (base + x * 2 ^ e.toNat) ∧ r.bxo = false ∧ r.sat = beyond (base + x * 2 ^ e.toNat) ∧ r.unf = false)
    ∧ (-24 ≤ e → e < 0 → ∃ y : Int, r.val = clamp (base + y) ∧ r.sat = beyond (base + y) ∧ r.bxo = false ∧ r.unf = false
      ∧ (2 * (y * 2 ^ (-e).toNat - x)).natAbs ≤ 2 ^ (-e).toNat ∧ ((2 * (y * 2 ^ (-e).toNat - x)).natAbs = 2 ^ (-e).toNat → y % 2 = 0))
    ∧ (e < -24 → r.val = clamp base ∧ r.bxo = false ∧ r.unf = true)

/-- The oldest vector of the engine with outputs to write, once every plane of it is read and where its P-pad words lie in a bank that is ON: each unmasked output's
word takes the aligned result of R41 on the word it held, and no other byte of any pad or vault changes; the tile release at
t₀ + b × V advances the W-pad region's tail (R31, R32, R41, R115). -/
def Obligations.EngineOutputsAndRelease : Prop :=
  ∀ (c : Nat) (s : State), let k := s.core c; let banks := (s.cluster (c / 72)).banks
    (∀ o outs, c < 73728 → k.eng.find? (fun o => decide (o.written < o.v)) = some o →
      (latchOp k banks (o.t0 + o.b * (o.written + 1) - 1) o).latched[o.written]? = some outs →
      let addr := fun j => 0x50000 + (o.pAddr + 4 * (o.written * outs.length + j)) % 0x10000
      let res := fun j => alignOut (outs.getD j (0, 0)).1 (outs.getD j (0, 0)).2 o.acc (BitVec.ofNat 32 (leNat (k.bytes (addr j) 4))).toInt
      o.pAddr % 4 = 0 → outs.length ≤ 256 → (∀ j, j < outs.length → accessCause banks (addr j) 4 = none) →
      ∃ t, exec (.engineOutputWrite c) s = .next t ∧ OtherCoresStand c s t ∧ t.vaults = s.vaults
        ∧ (∀ j, j < outs.length → o.cmask.getLsbD (outCol j) = true →
            (t.core c).bytes (addr j) 4 = leBytes 4 (BitVec.ofInt 32 (res j).val).toNat)
        ∧ (∀ a, (∀ j i, j < outs.length → o.cmask.getLsbD (outCol j) = true → i < 4 → a ≠ addr j + i) →
            tget (t.core c).pad 0 a = tget k.pad 0 a)
        ∧ ((t.core c).sat = true ↔ k.sat = true ∨ ∃ j, j < outs.length ∧ o.cmask.getLsbD (outCol j) = true ∧ (res j).sat = true)
        ∧ ((t.core c).bxo = true ↔ k.bxo = true ∨ ∃ j, j < outs.length ∧ o.cmask.getLsbD (outCol j) = true ∧ (res j).bxo = true)
        ∧ SameRegisters k (t.core c))
    ∧ (∀ o, c < 73728 → k.eng.find? (fun o => !o.released) = some o → o.v ≤ (latchOp k banks (o.t0 + o.b * o.v) o).latched.length →
      ∃ t, exec (.engineTileRelease c) s = .next t
      ∧ ((t.core c).circOf 0 o.wreg).tail = ((k.circOf 0 o.wreg).tail + min (tileBytes o.b) (k.circOf 0 o.wreg).fill) % 2 ^ 21
      ∧ ((t.core c).circOf 0 o.wreg).head = (k.circOf 0 o.wreg).head ∧ SameRegisters k (t.core c) ∧ StoresNothing s t
      ∧ OtherCoresStand c s t)

/-- ECLR waits until every issued engine operation has written its last output, then clears SAT, BXO, PAR, RES, UND and W, and leaves the UNF
count and the cluster registers; EWAIT holds the core until every issued operation's outputs are written (R90, R92). -/
def Obligations.StatusClearAndEngineWait : Prop :=
  (∀ (c : Nat) (w : DWord) (s : State), let k := s.core c
      (Executes 0x14 c w s → ∃ t, exec (.eclr c w) s = .next t ∧ OnlyCore c s t ∧ (t.core c).wait = .eclr ∧ (t.core c).estat = k.estat
        ∧ (t.core c).unf = k.unf ∧ SameRegisters k (t.core c) ∧ Continues k (t.core c))
      ∧ (c < 73728 → k.run = .running → k.wait = .eclr → k.engDrained = true → ∃ t, exec (.eclrClear c) s = .next t ∧ OnlyCore c s t
        ∧ t.clusters = s.clusters ∧ (t.core c).wait = .none ∧ (t.core c).estat = 0 ∧ (t.core c).unf = k.unf ∧ SameRegisters k (t.core c))
      ∧ (c < 73728 → k.engDrained = false → exec (.eclrClear c) s = .next s)
      ∧ (k.wait = .eclr → ∀ v, exec (.emm c v []) s = if c < 73728 then .next s else .fault .noSuchUnit))
  ∧ (∀ (c : Nat) (w : DWord) (s : State), let k := s.core c
      (Executes 0x15 c w s → ∃ t, exec (.ewait c w) s = .next t ∧ OnlyCore c s t ∧ (t.core c).wait = .ewait ∧ SameRegisters k (t.core c)
        ∧ Continues k (t.core c))
      ∧ (c < 73728 → k.run = .running → k.wait = .ewait → k.engDrained = true → ∃ t, exec (.ewaitRelease c) s = .next t ∧ OnlyCore c s t
        ∧ t.core c = { k with wait := .none, cycle := max k.cycle k.engLast })
      ∧ (c < 73728 → k.engDrained = false → exec (.ewaitRelease c) s = .next s))

/-! ### Core instructions: the vault port, the tree interface, the lattice, synchronisation -/

/-- VLD, VRD and VWR that execute with fewer than four operations outstanding: the operation joins the end of the port's queue, and no
memory changes yet, but for DRAM errors that strike the vault; CAPR leaves AR past the last scale halfword. A fifth operation stalls (R96, R97, R126). -/
def Obligations.VaultPortInstructions : Prop :=
  ∀ (c : Nat) (w : DWord) (s : State), let k := s.core c
    let queued := fun (s t : State) => (t.core c).vq.length = k.vq.length + 1
      ∧ ((t.core c).vq.getLast?.map fun o => { o with headAt := 0 }) = some (vaultOpOf k w)
      ∧ (k.vq ≠ [] → (t.core c).vq = k.vq ++ [vaultOpOf k w]) ∧ Continues k (t.core c) ∧ OtherCoresStand c s t ∧ StoresNothing s t
      ∧ (t.core c).s = k.s ∧ (t.core c).v = k.v ∧ (t.core c).p = k.p
    (Executes 0x2E c w s → k.vq.length < 4 → ∃ t, exec (.vld c w) s = .next t ∧ queued s t
      ∧ ∀ q, q < 16 → (t.core c).areg q = if fbit w 26 = true ∧ q = fld w 25 22 then
          BitVec.ofNat 20 ((k.areg q).toNat + 2 * (vaultOpOf k w).tileCount) else k.areg q)
    ∧ (∀ fs, Executes 0x2F c w s → k.vq.length < 4 → ∃ t, exec (.vrd c w fs) s = .next t ∧ queued (s.vaultFlips c fs) t ∧ (t.core c).a = k.a)
    ∧ (Executes 0x30 c w s → k.vq.length < 4 → ∃ t, exec (.vwr c w) s = .next t ∧ queued s t ∧ (t.core c).a = k.a)
    ∧ (Executes 0x2E c w s → 4 ≤ k.vq.length → ∃ t, exec (.vld c w) s = .next t ∧ (t.core c).wait = .stall w ∧ (t.core c).pc = k.pc
      ∧ (t.core c).vq = k.vq ∧ StoresNothing s t)

/-- A tile held by the converter is committed when its region has room: its bytes stand at HEAD and HEAD advances by their number; a core
that has stalled on its planes goes on, with class 0x03. A paused run resumes when fewer than three tiles are held. A finished
operation leaves the queue: a VRD's granules then stand in the pad, and a VWR's in the vault, as the pad held them when each was
moved (R35, R96, R97, R114, R124, R126). -/
def Obligations.VaultPortEvents : Prop :=
  ∀ (c : Nat) (s : State) (o : VaultOp) (ts : List TileBuf) (tile : TileBuf) (r : List VaultOp), let k := s.core c
    let d := k.circOf 0 o.wreg; let s1 := s.engCatch c (s.regionCount c)
    (c < 73728 → k.vq = { o with bufs := tile :: ts } :: r → o.kind = .vld → tile.scale = none →
      tileBytes (widBits o.wid) ≤ d.size - d.fill → tile.bytes.length ≤ d.size → (s1.core c).planeLate = none →
      (s.core c).circOff (s.cluster (c / 72)).banks 0 o.wreg d.head tile.bytes.length = none →
      ∃ t, exec (.tileCommit c []) s = .next t ∧ OnlyCore c s t ∧ (t.core c).vq = { o with bufs := ts } :: r
        ∧ (t.core c).circOf 0 o.wreg = { d with head := (d.head + tile.bytes.length) % 2 ^ 21 }
        ∧ (d.head + tile.bytes.length ≤ 2 ^ 21 → (t.core c).circBytes 0 o.wreg d.head tile.bytes.length = tile.bytes)
        ∧ SameRegisters k (t.core c))
    ∧ (∀ n, c < 73728 → (s1.core c).planeLate = some n → let s2 := s1.tileStep c; (s2.core c).planeLate ≠ some n → n < s2.resumeAt c 0 →
      ∃ t, exec (.tileCommit c []) s = .next t ∧ (t.core c).und = true ∧ s2.resumeAt c 0 ≤ (t.core c).cycle ∧ EventCounted 0x03 s2 t)
    ∧ (c < 73728 → k.vq = o :: r → o.paused = true → o.bufs.length < 3 → ∃ t, exec (.vaultRunResume c) s = .next t ∧ OnlyCore c s t
      ∧ t.core c = { k with vq := { o with paused := false } :: r })
    ∧ (∀ wait, c < 73728 → k.vq = [o] → o.kind = .vld → o.finished = true → k.wait = .none →
      ∃ t, exec (.vaultOperationComplete c wait [] []) s = .next t ∧ OnlyCore c s t ∧ t.core c = { k with vq := [] })
    ∧ (∀ wait, c < 73728 → k.vq = [o] → k.wait = .none → o.kind = .vrd → o.count ≤ 4096 →
      (∀ i, i < o.count → s.padAnswers c (o.addr + 64 * i) 64 ∧ (s.vault c).decode ((o.start + i) % 2 ^ 19) = .clean) →
      ∃ t, exec (.vaultOperationComplete c wait [] []) s = .next t ∧ (t.core c).vq = [] ∧ SameRegisters k (t.core c)
        ∧ (∀ i j, i < o.count → j < 64 → tget (t.core c).pad 0 ((o.addr + 64 * i + j) % 0x100000) =
            tget (s.vault c).data 0 (64 * ((o.start + i) % 2 ^ 19) + j))
        ∧ (∀ a, (∀ i j, i < o.count → j < 64 → a ≠ (o.addr + 64 * i + j) % 0x100000) → tget (t.core c).pad 0 a = tget k.pad 0 a)
        ∧ t.vaults = s.vaults ∧ OtherCoresStand c s t)
    ∧ (∀ wait, c < 73728 → k.vq = [o] → k.wait = .none → o.kind = .vwr → o.count ≤ 4096 →
      (∀ i, i < o.count → s.padAnswers c (o.addr + 64 * i) 64) →
      ∃ t, exec (.vaultOperationComplete c wait [] []) s = .next t ∧ (t.core c).vq = [] ∧ SameRegisters k (t.core c)
        ∧ (∀ i j, i < o.count → j < 64 → tget (t.vault c).data 0 (64 * ((o.start + i) % 2 ^ 19) + j) =
            (k.bytesAt (o.moves wait i) ((o.addr + 64 * i) % 0x100000) 64).getD j 0)
        ∧ (∀ a, (∀ i j, i < o.count → j < 64 → a ≠ 64 * ((o.start + i) % 2 ^ 19) + j) → tget (t.vault c).data 0 a = tget (s.vault c).data 0 a)
        ∧ (∀ d, d ≠ c → t.vault d = s.vault d) ∧ (∀ d, (t.core d).pad = (s.core d).pad))

/-- CRADV, TSEND, TWAIT and its release (R97, R114, R115, R168). -/
def Obligations.TreeInterfaceInstructions : Prop :=
  ∀ (c : Nat) (w : DWord) (s : State), let k := s.core c; let d := k.circOf (fld w 43 42) (fld w 47 44); let n := fld w 19 0
    (Executes 0x31 c w s → ∃ t, exec (.cradv c w) s = .next t ∧ SameRegisters k (t.core c) ∧ Continues k (t.core c)
      ∧ OtherCoresStand c s t ∧ StoresNothing s t
      ∧ (t.core c).circOf (fld w 43 42) (fld w 47 44) =
          (if fbit w 48 then { d with head := (d.head + min n (d.size - d.fill)) % 2 ^ 21 }
           else { d with tail := (d.tail + min n d.fill) % 2 ^ 21 }))
    ∧ (Executes 0x32 c w s → k.sends.length < 8 → ∃ t, exec (.tsend c w) s = .next t ∧ OnlyCore c s t ∧ SameRegisters k (t.core c)
      ∧ Continues k (t.core c) ∧ (t.core c).pad = k.pad
      ∧ (t.core c).sends = k.sends ++ [⟨fld w 53 52, (k.areg (fld w 51 48)).toNat, fld w 47 42 + 1, 0, fld w 41 26, fbit w 25, fbit w 24
          , routeAct k.routes (fld w 41 26) (fbit w 25), 0, k.pc.toNat⟩])
    ∧ (Executes 0x32 c w s → 8 ≤ k.sends.length → ∃ t, exec (.tsend c w) s = .next t ∧ OnlyCore c s t ∧ (t.core c).wait = .stall w
      ∧ (t.core c).pc = k.pc ∧ (t.core c).sends = k.sends)
    ∧ (Executes 0x33 c w s → ∃ t, exec (.twait c w) s = .next t ∧ OnlyCore c s t ∧ SameRegisters k (t.core c) ∧ Continues k (t.core c)
      ∧ (t.core c).wait = if (k.circOf 1 (fld w 23 20)).fill ≥ n then .none else .twait (fld w 23 20) n)
    ∧ (∀ r m, c < 73728 → k.wait = .twait r m → (k.circOf 1 r).fill ≥ m → ∃ t, exec (.twaitRelease c) s = .next t ∧ OnlyCore c s t
      ∧ t.core c = { k with wait := .none, cycle := s.resumeAt c 0 })

/-- LSEND and LRECV take a descriptor in time for their slot, and one too late is discarded; LPUT consumes credit and waits for its credit
slot, or stalls; LCRD returns at most what was released, and stalls on a seam's full credit queue; a credit word raises the
writer's counter, clamped at its initial value, and leaves the queue (R98, R117, R118, R149, R153). -/
def Obligations.LatticeInstructions : Prop :=
  ∀ (c : Nat) (w : DWord) (s : State), let k := s.core c; let need := lputNeed w; let key := 16 * fld w 16 15 + fld w 14 11
    let start := k.startAt w [32 + fld w 41 38] 0; let slotAt := start - k.frameStart + 4
    let passed := fun (t : State) => SameRegisters k (t.core c) ∧ Continues k (t.core c) ∧ OtherCoresStand c s t ∧ StoresNothing s t
    let taken := fun (t : State) (send : Bool) => passed t
      ∧ (t.core c).desc = k.desc ++ [⟨send, fld w 53 42, lAddr k w / 64 * 64, fbit w 17, k.pc.toNat, 0, 0⟩]
    let back := min (fld w 10 0) (tget k.released 0 (fld w 14 11) / 64)
    let full := fun n' => regionOf n' ≠ regionOf c ∧ 16 ≤ (tget (s.core n').creditIn [] ((fld w 16 15 + 2) % 4)).length
    (Executes 0x34 c w s → s.descUsed c start < 16 → slotAt ≤ fld w 53 42 → ∃ t, exec (.lsend c w) s = .next t ∧ taken t true)
    ∧ (Executes 0x35 c w s → s.descUsed c start < 16 → slotAt ≤ fld w 53 42 → ∃ t, exec (.lrecv c w) s = .next t ∧ taken t false)
    ∧ (Executes 0x34 c w s → s.descUsed c start < 16 → fld w 53 42 < slotAt → ∃ t, exec (.lsend c w) s = .next t ∧ passed t ∧ (t.core c).desc = k.desc)
    ∧ (Executes 0x35 c w s → s.descUsed c start < 16 → fld w 53 42 < slotAt → ∃ t, exec (.lrecv c w) s = .next t ∧ passed t ∧ (t.core c).desc = k.desc)
    ∧ (Executes 0x36 c w s → s.linkClosed c (fld w 16 15) = false → need ≤ tget k.credit 0 key → ∃ t, exec (.lput c w) s = .next t
      ∧ OnlyCore c s t ∧ SameRegisters k (t.core c) ∧ Continues k (t.core c) ∧ (t.core c).pad = k.pad
      ∧ tget (t.core c).credit 0 key = tget k.credit 0 key - need ∧ (t.core c).lputs.length = k.lputs.length + need)
    ∧ (Executes 0x36 c w s → (s.linkClosed c (fld w 16 15) = true ∨ tget k.credit 0 key < need) → ∃ t, exec (.lput c w) s = .next t ∧ OnlyCore c s t
      ∧ (t.core c).wait = .stall w ∧ (t.core c).pc = k.pc ∧ (t.core c).credit = k.credit ∧ (t.core c).lputs = k.lputs)
    ∧ (c < 73728 → k.wait = .stall w → opOf w = 0x36 → s.linkClosed c (fld w 16 15) = false → need ≤ tget k.credit 0 key →
      ∃ t, exec (.lputCreditRelease c) s = .next t ∧ OnlyCore c s t ∧ (t.core c).wait = .none ∧ Continues k (t.core c)
        ∧ tget (t.core c).credit 0 key = tget k.credit 0 key - need ∧ (t.core c).lputs.length = k.lputs.length + need)
    ∧ (Executes 0x37 c w s → (∀ n', s.neighbor c (fld w 16 15) = some n' → s.linkClosed c (fld w 16 15) = false → ¬full n') →
      ∃ t, exec (.lcrd c w) s = .next t ∧ SameRegisters k (t.core c) ∧ Continues k (t.core c)
      ∧ tget (t.core c).released 0 (fld w 14 11) = tget k.released 0 (fld w 14 11) - 64 * back
      ∧ (∀ n', s.neighbor c (fld w 16 15) = some n' → n' ≠ c → s.linkClosed c (fld w 16 15) = false →
          tget (t.core n').creditIn [] ((fld w 16 15 + 2) % 4) = tget (s.core n').creditIn [] ((fld w 16 15 + 2) % 4) ++ [(fld w 14 11, back)]))
    ∧ (∀ n', Executes 0x37 c w s → s.neighbor c (fld w 16 15) = some n' → s.linkClosed c (fld w 16 15) = false → full n' →
      ∃ t, exec (.lcrd c w) s = .next t ∧ OnlyCore c s t ∧ (t.core c).wait = .stall w ∧ (t.core c).pc = k.pc ∧ (t.core c).released = k.released)
    ∧ (∀ dir cr n rest gray, c < 73728 → dir < 4 → tget k.creditIn [] dir = (cr, n) :: rest →
      ∃ t, exec (.creditWordArrival c dir gray) s = .next t
        ∧ tget (t.core c).credit 0 (16 * dir + cr) = min (tget k.credit 0 (16 * dir + cr) + n) (tget k.creditInit 0 (16 * dir + cr))
        ∧ SameRegisters k (t.core c) ∧ (t.core c).pad = k.pad
        ∧ ((∀ n', s.neighbor c dir = some n' → (s.core n').wait = .none) → tget (t.core c).creditIn [] dir = rest ∧ OtherCoresStand c s t))

/-- BAR arrives, BARW, WAITC, WAITF and FENCE hold their core, and EVT raises class 0x0B (R66, R99, R103). A barrier's release reaches a core
at BARW: SR and LASTFLAG take the flag word, and a word with SAT or BXO set stops the core's run, one without lets it go on
(R99, R100). -/
def Obligations.SynchronisationInstructions : Prop :=
  (∀ (c : Nat) (w : DWord) (s : State), let k := s.core c; let act8 := (s.part ((s.partOf c).getD 0)).act8
      let held := fun (t : State) (x : Wait) => OnlyCore c s t ∧ SameRegisters k (t.core c) ∧ Continues k (t.core c) ∧ (t.core c).wait = x
      (Executes 0x38 c w s → (fbit w 4 = true → k.engDrained = true) → ∃ t, exec (.bar c w) s = .next t ∧ SameRegisters k (t.core c)
        ∧ Continues k (t.core c) ∧ OtherCoresStand c s t ∧ t.tree = { s.tree with barMsgs := s.tree.barMsgs ++
          [⟨c / 72, 10000 + c, (s.partOf c).getD 0, fld w 3 0, fbit w 4 && k.sat && !act8, fbit w 4 && k.bxo && !act8
            , if fbit w 4 then k.wmark else 0, false⟩] })
      ∧ (Executes 0x38 c w s → fbit w 4 = true → k.engDrained = false → ∃ t, exec (.bar c w) s = .next t ∧ OnlyCore c s t
        ∧ (t.core c).wait = .stall w ∧ (t.core c).pc = k.pc)
      ∧ (Executes 0x39 c w s → ∃ t, exec (.barw c w) s = .next t ∧ held t (.barw (fld w 3 0) (fld w 41 37)))
      ∧ (Executes 0x3A c w s → k.startAt w [] 0 - k.frameStart < fld w 11 0 → ∃ t, exec (.waitc c w) s = .next t ∧ held t (.waitc (fld w 11 0)))
      ∧ (Executes 0x3A c w s → fld w 11 0 ≤ k.startAt w [] 0 - k.frameStart → ∃ t, exec (.waitc c w) s = .next t ∧ (t.core c).wait = .none
        ∧ SameRegisters k (t.core c) ∧ Continues k (t.core c) ∧ OtherCoresStand c s t)
      ∧ (∀ n, c < 73728 → k.wait = .waitc n → ∃ t, exec (.waitcRelease c) s = .next t ∧ OnlyCore c s t
        ∧ t.core c = { k with wait := .none, cycle := max k.cycle (k.frameStart + n) })
      ∧ (Executes 0x3B c w s → ∃ t, exec (.waitf c w) s = .next t ∧ held t .waitf)
      ∧ (Executes 0x3C c w s → ∃ t, exec (.fence c w) s = .next t ∧ held t (.fence (fld w 3 0)))
      ∧ (∀ m, c < 73728 → k.wait = .fence m → (m.testBit 1 = true → k.vq = []) → (m.testBit 2 = true → s.descDone c = true ∧ k.lputs = []) →
        (m.testBit 3 = true → k.sends = []) → ∃ t, exec (.fenceRelease c) s = .next t ∧ OnlyCore c s t ∧ (t.core c).wait = .none
          ∧ (t.core c).pc = k.pc ∧ SameRegisters k (t.core c))
      ∧ (Executes 0x3D c w s → ∃ t, exec (.evt c w) s = .next t ∧ SameRegisters k (t.core c) ∧ Continues k (t.core c) ∧ OtherCoresStand c s t
        ∧ StoresNothing s t ∧ EventCounted 0x0B s t))
  ∧ (∀ (c entry bar sr : Nat) (err : Option Nat) (r : BarRel) (s : State), let k := s.core c
      let flag := r.flag ^^^ (match err with | none => 0 | some x => BitVec.ofNat 32 (x % 4 + 256 * (x / 4 % 64)))
      c < 73728 → k.wait = .barw bar sr → s.tree.rels.find? (fun r => decide (r.core = c) && decide (r.bar = bar)) = some r →
        ∃ t, exec (.barwRelease c entry err) s = .next t ∧ (t.core c).wait = .none ∧ (t.core c).lastFlag = flag
          ∧ (∀ q, q < 32 → (t.core c).sreg q = if q = 0 then 0 else if q = sr % 32 then flag else k.sreg q)
          ∧ (t.core c).run = (if flag.toNat % 4 = 0 then k.run else .stopped) ∧ (t.core c).a = k.a ∧ (t.core c).v = k.v ∧ (t.core c).p = k.p
          ∧ t.tree.rels = s.tree.rels.erase r ∧ OtherCoresStand c s t ∧ StoresNothing s t)

/-! ### The lattice and the express tree -/

/-- The end of a slot frame at which no core is late, no lull is due and no freeze ordered: each live core's FCYC restarts, FRAMENO rises
and WAITF ends; the region's count moves on by FLEN; a region with a core outstanding at a gated boundary only counts pause cycles
(R99, R101, R141, R142, R201). -/
def Obligations.FrameBoundaryAdvances : Prop :=
  ∀ (r gate : Nat) (s : State), let n := (s.region r).net; let p := (s.region r).part.getD 0
    (r < 64 → n.inFrame = true → n.held = none → (∀ c ∈ s.liveCores r, (s.core c).late = false) → (s.part p).freezeAt = none →
      (s.liveCores r).Nodup →
      ∃ t, exec (.frameBoundary r gate) s = .next t ∧ (t.region r).net.count = n.count + s.frameLen r
        ∧ (∀ c ∈ s.liveCores r, (t.core c).frameNo = (s.core c).frameNo + 1 ∧ (t.core c).frameStart = (s.core c).frameStart + s.frameLen r
          ∧ (t.core c).wait = (if (s.core c).wait = .waitf then .none else (s.core c).wait) ∧ SameRegisters (s.core c) (t.core c))
        ∧ (∀ c, c ∉ s.liveCores r → t.core c = s.core c) ∧ StoresNothing s t)
    ∧ (∀ it, r < 64 → n.inFrame = true → n.held = none → (s.part p).seq[n.seqPos]? = some it → it.gate = true →
      (∃ c ∈ s.liveCores r, (s.core c).late = true) → ∃ t, exec (.frameBoundary r gate) s = .next t ∧ t.cores = s.cores
        ∧ (t.region r).net.gateCnt = satAdd n.gateCnt gate ∧ (t.region r).net.count = n.count)

/-- A router entry at its slot that takes an input lane's word, unadded: onto a link, the word joins the neighbour's input lane with the
latency of the hop; onto the local lane of an LRECV descriptor, its bytes are stored at the descriptor's address, and nowhere else
(R138, R145, R153). A region held on a seam resumes once the awaited entry can go, and its held cycles are counted (R155, R156). -/
def Obligations.RouterEntriesAndHolds : Prop :=
  ∀ (c slot : Nat) (s : State), let r := regionOf c; let n := (s.region r).net; let d := fun (e : BitVec 32) => n.count + eSlot e
    let runs := fun (e : BitVec 32) (w : LaneWord) => c < 73728 ∧ (s.core c).router[slot]? = some e ∧ n.inFrame = true ∧ n.held = none
      ∧ ef e 29 27 = n.plan ∧ eSlot e < s.frameLen r ∧ ((n.exec < d e ∨ n.exec = d e ∧ n.fired = []) ∧ s.seamHold r (d e) = 0
        ∨ n.exec = d e ∧ n.fired ≠ [] ∧ n.fired.contains (4096 * c + slot) = false) ∧ e.getLsbD 24 = false ∧ ef e 19 16 < 8
      ∧ s.linkClosed c (ef e 19 16 / 2) = false ∧ (tget s.links [] (8 * c + ef e 19 16)).find? (fun x => decide (x.due = d e)) = some w
      ∧ w.data.length = 64
    (∀ e w m, runs e w → eOut e < 8 → s.linkClosed c (eOut e / 2) = false →
      s.neighbor c (eOut e / 2) = some m → m ≠ c → ∃ t, exec (.routerSlot c slot [] []) s = .next t
        ∧ (let key := 8 * m + 2 * ((eOut e / 2 + 2) % 4) + eOut e % 2
           tget t.links [] key = tget s.links [] key ++ [⟨w.data, w.sb, w.void, w.err, false, false,
             d e + (if regionOf m = r then (if eOut e / 2 % 2 = 0 then 2 else 3) else n.slack), c⟩])
        ∧ (t.region r).net.exec = d e ∧ StoresNothing s t)
    ∧ (∀ e w x, runs e w → 8 ≤ eOut e → eOut e < 10 → e.getLsbD 26 = false → e.getLsbD 25 = false →
      (s.core c).desc.find? (fun x => !x.send && decide (x.slot = eSlot e) && (decide (eOut e - 8 = 0) || x.two)
        && !(x.done.testBit (eOut e - 8))) = some x → s.padAnswers c ((x.addr + 64 * (eOut e - 8)) % 0x100000) w.data.length →
      ∃ t, exec (.routerSlot c slot [] []) s = .next t ∧ StoresAt c ((x.addr + 64 * (eOut e - 8)) % 0x100000) 0x100000 w.data s t
        ∧ (t.region r).net.exec = d e)
    ∧ (∀ q cycles stalls m, q < 64 → (s.region q).net.held = some m → s.holdClear q = true → ∃ t, exec (.seamHoldEnd q cycles stalls) s = .next t
      ∧ (t.region q).net.held = none ∧ (t.region q).net.hold = satAdd (s.region q).net.hold cycles
      ∧ (∀ dir, dir < 4 → tget (t.region q).net.stalls 0 dir =
          satAdd (tget (s.region q).net.stalls 0 dir) (min (stalls.getD dir 0) cycles))
      ∧ t.cores = s.cores ∧ t.links = s.links)

/-- Flits and deliveries: a core's packet enters its port with the pad's bytes; a flit addressed to a core goes on toward it, and a body flit
after its head; at its port it is handed to the receiving core's inbox region; delivered, it is stored at that region's HEAD, which
advances by 64 B (R114, R166, R167, R170, R171, R174, R175). -/
def Obligations.TreeFlitsTravelAndLand : Prop :=
  ∀ (sw vc pos : Nat) (s : State),
    let pathOf := fun (idx pid : Nat) => if idx = 0 then none else s.tree.paths.find? fun x => decide (x.sw = sw) && decide (x.head.pid = pid)
    (∀ p, let c := 72 * sw + pos; let addr := (p.addr / 64 * 64 + 64 * p.sent) % 0x100000
      sw < 1024 → pos < 72 → s.nodeUp sw = true →
      (s.core c).sends.find? (fun x => decide (x.vc = vc)) = some p → s.tree.room sw (10000 + c) 0 vc = true →
      (∀ x ∈ (s.core c).sends, laneOrder x.vc false < laneOrder vc false → s.tree.room sw (10000 + c) 0 x.vc = false) →
      (∀ x, pathOf p.sent p.pid = some x → x.head.grp = false ∨ x.head.typ ≠ 1) → (p.grp = false ∨ p.red = false ∨ vc ≠ 1) →
      s.padAnswers c addr 64 → ∃ (t : State) (f : Flit), exec (.treeFlitArrival sw vc (.core pos []) 0) s = .next t
        ∧ (let outs := ((pathOf p.sent p.pid).map (·.outs)).getD [1024 + sw / 16]
           t.tree.flits = s.tree.flits ++ outs.map fun o => { f with sw := o, lane := s.laneOf sw o f })
        ∧ f.data = (s.core c).bytesAt (s.core c).cycle addr 64 ∧ f.from_ = sw ∧ f.src = c ∧ f.vc = vc ∧ f.idx = p.sent
        ∧ f.dest = ((pathOf p.sent p.pid).map (·.head.dest)).getD p.dest ∧ f.tail = decide (p.sent + 1 = p.len) ∧ StoresNothing s t)
    ∧ (∀ f, sw < 1098 → s.nodeUp sw = true → s.tree.crossing sw vc = some f → f.crcErr = 0 → f.from_ < 10000 → 1024 ≤ sw → (let g := { f with from_ := sw, prev := f.from_, inLane := f.lane }
      (pathOf f.idx f.pid = none → f.grp = false → f.typ < 6 → ∃ t, exec (.treeFlitArrival sw vc .link 0) s = .next t ∧ t.cores = s.cores
        ∧ t.tree.flits = s.tree.flits.erase f ++ [{ g with sw := s.nextHop sw f.dest, lane := s.laneOf sw (s.nextHop sw f.dest) f }])
      ∧ (∀ x, pathOf f.idx f.pid = some x → x.head.typ < 6 → (x.head.grp = false ∨ x.head.typ ≠ 1) →
        ∃ (t : State) (l : List Flit), exec (.treeFlitArrival sw vc .link 0) s = .next t ∧ t.cores = s.cores ∧ t.tree.flits = s.tree.flits.erase f ++ l
          ∧ l.map (·.sw) = x.outs ∧ ∀ y ∈ l, y.data = f.data ∧ y.idx = f.idx ∧ y.pid = f.pid ∧ y.from_ = sw ∧ y.dest = x.head.dest)))
    ∧ (∀ f, sw < 1024 → s.nodeUp sw = true → s.tree.crossing sw vc = some f → f.crcErr = 0 → f.from_ < 10000 → pathOf f.idx f.pid = none →
      f.grp = false → f.typ < 4 → (s.region (sw / 16)).part = some f.part → ¬(f.typ = 0 ∧ f.vc = 2 ∧ f.aux = 1) →
      (let c := s.physAt (f.dest % 256) (f.dest / 256 % 256); let box := if f.vc = 2 then (s.core c).inbox2 else (s.core c).inbox1
       box.getLsbD 7 = true → ∃ t, exec (.treeFlitArrival sw vc .link 0) s = .next t ∧ t.tree.flits = s.tree.flits.erase f
         ∧ t.tree.deliver = s.tree.deliver ++ [{ f with from_ := sw, prev := f.from_, inLane := f.lane, dest := c, aux := box.toNat % 16 }]
         ∧ t.cores = s.cores))
    ∧ (∀ c f, c < 73728 → ((s.core c).run = .running ∨ (s.core c).run = .ended) → s.nextDelivery c = some f → f.crcErr = 0 → f.bad = false →
      f.data.length = 64 →
      (let d := (s.core c).circOf 1 f.aux
       (s.core c).circOff (s.cluster (c / 72)).banks 1 f.aux d.head 64 = none → d.head + 64 ≤ 2 ^ 21 → ∃ t, exec (.treeDelivery c 0) s = .next t
         ∧ (t.core c).circOf 1 f.aux = { d with head := (d.head + 64) % 2 ^ 21 } ∧ (t.core c).circBytes 1 f.aux d.head 64 = f.data
         ∧ t.tree.deliver = s.tree.deliver.erase f ∧ SameRegisters (s.core c) (t.core c) ∧ OtherCoresStand c s t))

/-- Acknowledgements; resends, the whole packet each time, up to three, and then class 0x1F; barrier arrivals combined and released; and the
service order of the hosted switches (R177, R178, R180). -/
def Obligations.TreeControlEvents : Prop :=
  ∀ (s : State)
    , (∀ n, s.tree.ackIn.contains n = true → ∃ t, exec (.treeAck n) s = .next t ∧ t.cores = s.cores ∧ t.tree.ackIn.contains n = false
      ∧ (∀ a, a ∈ t.tree.acks ↔ a ∈ s.tree.acks ∧ a.seqno ≠ n))
    ∧ (∀ n a, s.tree.acks.find? (fun a => decide (a.seqno = n)) = some a → a.due ≤ s.clk.wtime → a.sends < 3 →
      ∃ t, exec (.treeResend n) s = .next t ∧ t.evt = s.evt ∧ { a with sends := a.sends + 1, due := s.clk.wtime + 3500 } ∈ t.tree.acks
        ∧ t.tree.flits.length = s.tree.flits.length + a.lines.length)
    ∧ (∀ n a, s.tree.acks.find? (fun a => decide (a.seqno = n)) = some a → a.due ≤ s.clk.wtime → 3 ≤ a.sends →
      ∃ t, exec (.treeResend n) s = .next t ∧ t.tree.acks = s.tree.acks.erase a ∧ t.tree.failed = s.tree.failed ++ [a]
        ∧ EventCounted 0x1F s t)
    ∧ (∀ sw wait m, sw < 1098 → s.nodeUp sw = true → s.tree.barMsgs.find? (fun m => decide (m.sw = sw)) = some m →
      (let b := ((s.tree.bars.find? fun b => decide (b.sw = sw) && decide (b.part = m.part) && decide (b.bar = m.bar)).getD
         ⟨sw, m.part, m.bar, 0, false, false, 0, false⟩)
       let sat := b.sat || m.sat; let bxo := b.bxo || m.bxo; let bad := b.bad || m.bad
       (b.got + 1 < s.barExpect m.part sw → ∃ t, exec (.barrierArrival sw none wait) s = .next t ∧ t.tree.barMsgs = s.tree.barMsgs.erase m
         ∧ t.tree.bars.getLast? = some { b with got := b.got + 1, sat := sat, bxo := bxo, w := max b.w m.w, bad := bad })
       ∧ (s.barExpect m.part sw ≤ b.got + 1 → sw = s.apex m.part → ∃ t, exec (.barrierArrival sw none wait) s = .next t
         ∧ ∀ q ∈ s.partRegions m.part, ∀ c ∈ s.liveCores q, (⟨c, m.bar, flagWord sat bxo (max b.w m.w), bad⟩ : BarRel) ∈ t.tree.rels)
       ∧ (s.barExpect m.part sw ≤ b.got + 1 → sw ≠ s.apex m.part → ∃ t, exec (.barrierArrival sw none wait) s = .next t
         ∧ t.tree.barMsgs = s.tree.barMsgs.erase m ++ [⟨s.barParent m.part sw, sw, m.part, m.bar, sat, bxo, max b.w m.w, bad⟩])))
    ∧ (∀ h, h < 10 → s.swUp h = true → s.swUp (pairOf h) = true → ∃ t, exec (.switchOutOfService h) s = .next t
      ∧ tget t.tree.hosts 0 h = 1 ∧ t.cores = s.cores)
    ∧ (∀ h, h < 10 → tget s.tree.hosts 0 h = 1 → s.swEmpty (1088 + h) = true → ∃ t, exec (.switchDrained h) s = .next t
      ∧ tget t.tree.hosts 0 h = 2 ∧ EventCounted 0x1E s t)
    ∧ (∀ h, h < 10 → tget s.tree.hosts 0 h = 2 → s.vcoreUp (hostRegions.getD h 0) = true → ∃ t, exec (.switchReturn h) s = .next t
      ∧ tget t.tree.hosts 0 h = 0 ∧ EventCounted 0x1E s t)

/-! ### Steps, faults and repair -/

/-- A launch with no tuning request, restoration or re-shard due: with ingest to do and its turn come, the blocks chosen make the step of the
ingest program; else a spin batch that of the spin program. The step counter rises, and every core that takes part starts at its entry,
at once or, while packets of the step's lists are on their way, by the launch that finds them acknowledged. Sections that are being
applied have been written by the next launch (R79, R238, R249, R265, R282, R283, R284). -/
def Obligations.StepLaunchStartsRun : Prop :=
  ∀ (p : Nat) (s : State), let s0 := s.restoreBursts p; let s1 := s0.allocReshard p; let x := s0.part p
    let ing := (s1.formIngest p).2; let spin := (s1.formSpin p).2
    let runs := fun (t : State) (ingest : Bool) => (t.part p).phase = .running ∧ (t.part p).faults = []
      ∧ (∀ r ∈ s.partRegions p, ∀ c ∈ s.liveCores r, (s.core c).dead = false → (t.core c).run = .running ∧ (t.core c).wait = .none
          ∧ (t.core c).pc = (if ingest then (s.core c).entryIngest else (s.core c).entrySpin) ∧ (t.core c).cycle = 0)
    let launched := fun (t : State) (ingest : Bool) (l : List BatchItem) => (t.part p).ingest = ingest ∧ (t.part p).runNo = 0
      ∧ (t.part p).step = ((s.part p).step + 1) % 2 ^ 32 ∧ (∀ y, y ∈ (t.part p).items ↔ y ∈ l)
      ∧ (if t.listsOut p then (t.part p).phase = .lists else runs t ingest)
    (p < 16 → s.mayLaunch p = true → (s.part p).returnReq = false → x.state = .ready → x.erefPend = false → x.lullNeed = 0 → x.tunes = [] →
      x.tuned = false →
      (ing ≠ [] → (spin = [] ∨ x.spins ≥ x.spinRun) → ∃ t, exec (.stepLaunch p) s = .next t ∧ launched t true ing)
      ∧ (spin ≠ [] → (ing = [] ∨ x.spins < x.spinRun) → ∃ t, exec (.stepLaunch p) s = .next t ∧ launched t false spin))
    ∧ (p < 16 → (s.part p).phase = .lists → (∀ a ∈ s.tree.failed, a.part ≠ p) → s.listsOut p = false → s.mayRun p = true →
      ∃ t, exec (.stepLaunch p) s = .next t ∧ runs t (s.part p).ingest ∧ (t.part p).items = (s.part p).items)
    ∧ (p < 16 → (s.part p).phase ≠ .lists → (s.part p).state = .ready → 1 < (s.part p).applying → ∃ t, exec (.stepLaunch p) s = .next t
      ∧ (t.part p).applying = 0 ∧ (t.part p).tuned = decide ((s.part p).applying = 2))

/-- A step whose cores have all reached END with nothing that keeps it from committing is over: nothing of it stays in flight
(R241); one flagged by its flag word runs again with its run number, the fourth time on the 8-bit path (R67, R68), which counts as a
replay too by the model's reading (log 225). A re-shard that is over gives each page its spin frame and STATE 1 (R247). -/
def Obligations.StepCommitsOrReplays : Prop :=
  ∀ (p : Nat) (s : State), let x := s.part p
    (∀ l fac, p < 16 → s.mayCommit p = true → (x.tuneRun ≠ 1 → x.tuneRun ≠ 2 → l.length = x.items.length ∧ ∀ y ∈ x.items.zip l, fits x.ingest y.1 y.2 = true) →
      ∃ t, exec (.stepCommit p l fac) s = .next t ∧ (t.part p).phase = .none ∧ (t.part p).items = [] ∧ (t.part p).faults = []
        ∧ (t.part p).runNo = 0 ∧ (t.part p).act8 = false)
    ∧ (∀ raised, p < 16 → x.phase = .replay → x.faults = [] → x.repair = none → ∃ t, exec (.replayRestart p raised) s = .next t
      ∧ (t.part p).phase = (if t.listsOut p then .lists else .running) ∧ (t.part p).runNo = x.runNo + 1 ∧ (t.part p).act8 = decide (2 ≤ x.runNo)
      ∧ (t.part p).items = x.items ∧ (t.part p).step = x.step ∧ (t.part p).replays = satInc x.replays)
    ∧ (∀ u, u < 2 ^ 17 → (s.req u).live = true → (s.req u).reshard = true → (s.req u).shardLeft = 0 → (s.req u).target ≠ [] →
      (s.req u).target.length = ((s.req u).pages.filter fun g => decide (g.state = 2)).length →
      ∃ t, exec (.reshardComplete u) s = .next t ∧ (t.req u).reshard = false ∧ (t.req u).target = []
        ∧ (let both := (s.req u).pages.zip (t.req u).pages
           (t.req u).pages.length = (s.req u).pages.length
           ∧ ((both.filter fun x => decide (x.1.state = 2)).map fun x => (x.2.f, x.2.g)) = (s.req u).target
           ∧ ∀ x ∈ both, x.2.state = (if x.1.state = 2 then 1 else x.1.state) ∧ (x.1.state ≠ 2 → x.2.f = x.1.f ∧ x.2.g = x.1.g))
        ∧ (t.req u).hist = (s.req u).hist ∧ ∀ v, v ≠ u → t.req v = s.req v)

/-- A reported fault abandons the step: no core of the partition runs any more (R108). The step runs again up to four times, and the
fifth fault, like a second watchdog in a row, takes the partition down (R203, R414). -/
def Obligations.FaultsAbandonAndRerun : Prop :=
  ∀ (p : Nat) (s : State), let x := s.part p
    (p < 16 → x.faults ≠ [] → (x.phase = .running ∨ x.phase = .replay) → ∃ t, exec (.faultStepAbandon p) s = .next t
      ∧ (t.part p).phase ≠ .running ∧ ∀ c ∈ s.runners p, (t.core c).run ≠ .running)
    ∧ (∀ raised, p < 16 → x.phase = .fault → x.held = 0 → x.repair = none → x.reruns < 4 → x.bad = [] → ∃ t, exec (.faultRerun p raised) s = .next t
      ∧ (t.part p).phase = (if t.listsOut p then .lists else .running) ∧ (t.part p).reruns = x.reruns + 1 ∧ (t.part p).items = x.items ∧ (t.part p).step = x.step
      ∧ (t.part p).runNo = x.runNo)
    ∧ (∀ raised, p < 16 → x.phase = .fault → x.held = 0 → x.repair = none → 4 ≤ x.reruns → ∃ t, exec (.faultRerun p raised) s = .next t
      ∧ (t.part p).state = .down ∧ (t.part p).downCause = 6)
    ∧ (p < 16 → x.phase = .running → (∃ c ∈ s.runners p, (s.core c).run ≠ .ended) → x.ranAt + usecs x.wdog ≤ s.clk.wtime → x.wdogs = 0 → ∃ t, exec (.stepWatchdog p) s = .next t
      ∧ (t.part p).phase = .fault ∧ (t.part p).wdogs = 1 ∧ (∀ c ∈ s.runners p, (t.core c).run ≠ .running)
      ∧ EventCounted 0x00 s t)
    ∧ (p < 16 → x.phase = .running → (∃ c ∈ s.runners p, (s.core c).run ≠ .ended) → x.ranAt + usecs x.wdog ≤ s.clk.wtime → 1 ≤ x.wdogs → ∃ t, exec (.stepWatchdog p) s = .next t
      ∧ (t.part p).state = .down ∧ (t.part p).downCause = 7)

/-- The heartbeat sample clears the bits of the cores that have issued; an accepted declaration holds the partition and orders a freeze,
then shifts the row; the copies move vault contents one column east up to the dead core; a restore relaunches (R130, R413, R416, R418). -/
def Obligations.HeartbeatsAndRepairs : Prop :=
  ∀ (p r : Nat) (s : State), let x := s.part p
    (∀ silent, r < 64 → (s.liveCores r).Nodup → (∀ c ∈ silent, (s.region r).net.exec - (s.core c).beatAt < 8192) →
      ∃ t, exec (.heartbeatSample r silent) s = .next t ∧ t.parts = s.parts ∧ t.evt = s.evt
        ∧ (∀ c ∈ s.liveCores r, c ∉ silent → (s.core c).run = .running → (s.core c).dead = false →
            t.core c = { s.core c with beat := false, beatAt := (s.region r).net.exec })
        ∧ (∀ c, c ∉ s.liveCores r ∨ c ∈ silent → t.core c = s.core c))
    ∧ (∀ d, p < 16 → x.repair = some d → d.stage = 0 → x.applying = 0 → x.doff.state ≠ 3 → s.clockDown p = false → s.stopped p = false → x.held ≠ 0 →
      ∃ t, exec (.liveRepair p) s = .next t ∧ (t.part p).freezeAt.isSome = true ∧ (t.part p).repair = some d
        ∧ (∀ n, x.freezeAt = some n → (t.part p).freezeAt = some n) ∧ t.cores = s.cores)
    ∧ (∀ d c cause, p < 16 → x.repair = some d → d.stage = 0 → x.applying = 0 → x.doff.state ≠ 3 → d.dead = [(c, cause, false)] → s.clockDown p = false → s.stopped p = true →
      x.held ≠ 0 → c % 9 < 8 → c < 73728 → ∃ t, exec (.liveRepair p) s = .next t ∧ (t.part p).repair = some { d with stage := 1 }
        ∧ (t.part p).freezeAt = none ∧ EventCounted 0x1A s t)
    ∧ (∀ d c cause, p < 16 → x.repair = some d → d.stage = 1 → d.copied = 0 → (∀ v, (s.core v).vq = []) → d.dead = [(c, cause, false)] → s.clockDown p = false → c % 9 < 8 → x.bad = [] →
      (∀ v, (s.vault v).chk = []) → x.items = [] → ∃ t, exec (.repairCopyDone p) s = .next t ∧ (t.part p).repair = none
        ∧ (t.part p).repairs = min 0xFFFF (x.repairs + 1) ∧ (t.part p).repCore = c % 72
        ∧ (∀ j, c % 9 ≤ j → j < 8 → (t.vault (c / 9 * 9 + j + 1)).data = (s.vault (c / 9 * 9 + j)).data))
    ∧ (∀ d, p < 16 → x.repair = some d → d.stage = 2 → d.copied = d.dead.length → (∀ e ∈ d.dead, e.2.2 = false) → x.bad = [] → x.state = .ready →
      ∃ t, exec (.vaultRestoreDone p) s = .next t ∧ (t.part p).repair = none
        ∧ (t.part p).repairs = min 0xFFFF (x.repairs + d.dead.length))

/-- A region agent that misses its heartbeats is restarted and its region emptied; again within an hour, the region is unusable. The
standby steward takes over from a failed one; with none in service every partition is EMPTY and the wafer is off
(R420, R430, R432). -/
def Obligations.AgentAndStewardLoss : Prop :=
  ∀ (r : Nat) (s : State), let again := s.boot.restarted.any fun y => decide (y.1 = r) && decide (s.clk.wtime ≤ y.2 + secs 3600)
    (r < 64 → again = false → (s.comp 2).state ≠ 4 → (s.comp 2).state ≠ 5 → ∃ t, exec (.agentHeartbeatMiss r) s = .next t
      ∧ (t.region r).agt.hbMiss = min 0xFF ((s.region r).agt.hbMiss + 3) ∧ (r, s.clk.wtime) ∈ t.boot.restarted
      ∧ (∀ q, (s.region r).part = some q → (t.part q).phase ≠ .running))
    ∧ (r < 64 → again = true → (s.comp 2).state ≠ 4 → (s.comp 2).state ≠ 5 → ∃ t, exec (.agentHeartbeatMiss r) s = .next t ∧ (t.region r).agt.unusable = true)
    ∧ (s.boot.stw.none = false → s.boot.stw.active = 0 → s.boot.stw.st1 = 2 → (s.comp 1).state ≠ 5 → ∃ t, exec .stewardFailover s = .next t
      ∧ t.boot.stw = { s.boot.stw with st0 := 3, st1 := 1, active := 1 } ∧ ∀ x ∈ t.xfers, x.verified = true ∨ x.holds = true)
    ∧ (s.boot.stw.none = false → s.boot.stw.active = 1 → s.boot.stw.st0 = 2 → (s.comp 1).state ≠ 5 → ∃ t, exec .stewardFailover s = .next t
      ∧ t.boot.stw = { s.boot.stw with st0 := 1, st1 := 3, active := 0 })
    ∧ (s.boot.stw.none = false → s.boot.stw.active = 0 → s.boot.stw.st0 = 1 → s.boot.stw.st1 ≠ 2 → ∃ t, exec .noSteward s = .next t
      ∧ t.boot.start = 0 ∧ t.boot.stw = { s.boot.stw with st0 := 3, none := true }
      ∧ ∀ p, p < 16 → (t.part p).state = .empty)

/-! ### Sessions and messages -/

/-- The handshake: INIT opens a half-open session and is answered with CHALLENGE, a repeated nonce with the same one; PROVE by a key
that a valid principal entry names opens the session, another is refused with class 0x38; a challenge unanswered for 1 s lapses
(R310, R317, R319, R321). -/
def Obligations.HandshakeOpensSessions : Prop :=
  ∀ (a : Arrive) (s : State), s.accepts a.iface a.tag = true →
    (∀ body : List Byte, let be := fun (o n : Nat) => leNat ((body.drop o).take n).reverse
      body.length = 1248 → be 32 1 ≤ 2 → be 33 1 = 0 → be 40 24 = 0 → (a.iface = 16 → be 32 1 ≠ 0) →
      (∀ h, s.eth.half.find? (fun h => decide (h.hnonce = be 0 32)) = some h → ∃ t, exec (.init a body) s = .next t
        ∧ t = { s with eth := { s.eth with hsOut := s.eth.hsOut ++ [(2, h.ses, stOk)] } })
      ∧ (s.eth.half.find? (fun h => decide (h.hnonce = be 0 32)) = none → s.eth.half.length < 64 → ∃ t h, exec (.init a body) s = .next t
        ∧ t.eth.half = s.eth.half ++ [h] ∧ h.hnonce = be 0 32 ∧ h.role = be 32 1 ∧ h.tenant = be 34 2 ∧ h.at_ = s.clk.wtime
        ∧ t.eth.hsOut = s.eth.hsOut ++ [(2, h.ses, stOk)] ∧ t.eth.sessions = s.eth.sessions)
      ∧ (s.eth.half.find? (fun h => decide (h.hnonce = be 0 32)) = none → 64 ≤ s.eth.half.length → exec (.init a body) s =
          .next { s with eth := { s.eth with hsOut := s.eth.hsOut ++ [(1, 0, stNoRoom)] } }))
    ∧ (∀ ses hpk h, s.eth.half.find? (fun h => decide (h.ses = ses)) = some h → s.clk.wtime ≤ h.at_ + secs 1 → hpk.length = 1952 →
      (∀ e, s.principal (dig hpk) h.role h.tenant = some e → s.eth.sessions.length < 4096 →
        (h.role = 2 → s.boot.owner = none ∨ s.boot.owner = some (dig hpk)) → ∃ t x, exec (.prove a ses hpk 3309 true) s = .next t
          ∧ t.session ses = some x ∧ x.role = h.role ∧ x.tenant = h.tenant ∧ x.pmask = e.mask ∧ x.rcvd = 0 ∧ x.tx = [] ∧ x.addr = a.addr
          ∧ (∀ y ∈ t.eth.half, y.ses ≠ ses) ∧ t.eth.hsOut = s.eth.hsOut ++ [(4, ses, stOk)])
      ∧ (∀ valid, valid = false ∨ s.principal (dig hpk) h.role h.tenant = none → ∃ t, exec (.prove a ses hpk 3309 valid) s = .next t
          ∧ t.session ses = s.session ses ∧ t.eth.hsOut = s.eth.hsOut ++ [(3, ses, stBadSig)]
          ∧ EventCounted 0x38 s t))
    ∧ (∀ ses h, s.eth.half.find? (fun h => decide (h.ses = ses)) = some h → h.at_ + secs 1 ≤ s.clk.wtime →
      ∃ t, exec (.handshakeTimeout ses) s = .next t ∧ (∀ y ∈ t.eth.half, y.ses ≠ ses) ∧ t.eth.sessions = s.eth.sessions)

/-- PING is answered, CLOSE ends its session, REKEY gives it new keys; a session lost or silent for its IDLE time closes
(R315, R318, R320). -/
def Obligations.SessionControlMessages : Prop :=
  ∀ (m : Msg) (h : Session) (s : State)
    , (Delivered m 0 5 0 s h → ∃ t, exec (.ping m) s = .next t ∧ Answered t m 0 5 stOk [] ∧ t = { s with eth := t.eth })
    ∧ (Delivered m 0 6 0 s h → ∃ t, exec (.close m) s = .next t ∧ t.session m.ses = none)
    ∧ (∀ kem, kem.length = 1184 → Delivered m 0 7 1184 s h → ∃ t g, exec (.rekey m false kem) s = .next t ∧ t.session m.ses = some g
      ∧ g.keyph = !h.keyph ∧ g.xmit = 0 ∧ g.oldKey = some (h.key, s.clk.wtime + secs 1) ∧ t.cores = s.cores)
    ∧ (∀ kem ek, kem.length = 1088 → h.rekeying = some ek → Delivered m 0 7 1088 s h → ∃ t g, exec (.rekey m true kem) s = .next t
      ∧ t.session m.ses = some g ∧ g.keyph = !h.keyph ∧ g.xmit = 0 ∧ g.rekeying = none ∧ g.oldKey = some (h.key, s.clk.wtime + secs 1))
    ∧ (∀ ses g o, s.session ses = some g → o ∈ g.tx → o.sent = true → o.first + secs 1 ≤ s.clk.wtime →
      ∃ t, exec (.sessionLost ses) s = .next t ∧ t.session ses = none
        ∧ EventCounted 0x3F s t)
    ∧ (∀ ses g, s.session ses = some g → g.lastRx + secs g.idle ≤ s.clk.wtime →
      ∃ t, exec (.sessionIdleTimeout ses) s = .next t ∧ t.session ses = none)

/-- Datagrams that their session opens: an acknowledgement lets the messages at or before it go; a message next in order is taken for
processing, a duplicate is not taken again; an unacknowledged message past its interval is sent again (R312, R315, R316). -/
def Obligations.ReliableDelivery : Prop :=
  ∀ (d : Dgram) (h : Session) (s : State), s.session d.ses = some h → h.xmit + h.tx.length + 2 < 2 ^ 30 → d.xmit < 2 ^ 32 - 1 →
    let good := s.accepts d.iface d.tag = true ∧ d.frag = false ∧ dgramOk d = true ∧ h.opens d s.clk.wtime = true
    let gone := h.tx.filter fun m => m.sent && (decide (m.seq = d.ack) || serialLt m.seq d.ack)
    (good → d.flags.getLsbD 1 = true → ∃ t g, exec (.ackonly d) s = .next t ∧ t.session d.ses = some g ∧ g.lastRx = s.clk.wtime
      ∧ g.peerWin = d.window ∧ (d.iface ≠ 16 ∨ h.role ≠ 0 → g.iface = d.iface ∧ g.addr = d.addr)
      ∧ (d.iface = 16 → h.role = 0 → g.iface = h.iface ∧ g.addr = h.addr) ∧ g.tx.length + gone.length = h.tx.length ∧ g.rcvd = h.rcvd
      ∧ g.ready = h.ready ∧ ∀ i, i ≠ d.ses → t.session i = s.session i)
    ∧ (good → d.flags.getLsbD 1 = false → h.ahead = [] → d.seq = seqNext h.rcvd → awayOf (h.ready ++ [(d.seq, d.cls, d.typ)]) = 0 → ∃ t g, exec (.datagramReceive d) s = .next t
      ∧ t.session d.ses = some g ∧ g.rcvd = d.seq ∧ g.ready = h.ready ++ [(d.seq, d.cls, d.typ)]
      ∧ ∀ i, i ≠ d.ses → t.session i = s.session i)
    ∧ (good → d.flags.getLsbD 1 = false → inWindow h.rcvd d.seq = false → d.seq = h.rcvd ∨ serialLt d.seq h.rcvd = true →
      ∃ t g, exec (.datagramReceive d) s = .next t ∧ t.session d.ses = some g ∧ g.rcvd = h.rcvd ∧ g.ready = h.ready)
    ∧ (s.accepts d.iface d.tag = true → d.frag = false → d.flags.getLsbD 1 = false → dgramOk d = false ∨ h.opens d s.clk.wtime = false →
      exec (.datagramReceive d) s = .next { s with eth := { s.eth with drop := satInc s.eth.drop } })
    ∧ (∀ seq m, h.tx.find? (fun m => decide (m.seq = seq) && m.sent && h.carries m && decide (m.due ≤ s.clk.wtime)
        && decide (s.clk.wtime < m.first + secs 1)) = some m → ∃ t g o, exec (.messageRetransmit d.ses seq) s = .next t
      ∧ t.session d.ses = some g ∧ o ∈ g.tx ∧ o.seq = seq ∧ o.sends = m.sends + 1 ∧ s.clk.wtime < o.due
      ∧ t.eth.retx = satInc s.eth.retx)

/-- REG_READ answers its words with address and count; a write of a writable word changes it and counts in DONE; the port modes, bypass
position, telemetry, quotes, identity and events follow their messages (R327, R333, R427, R454, R464, R479). -/
def Obligations.ManagementMessages : Prop :=
  ∀ (m : Msg) (h : Session) (s : State)
    , (∀ a n, 1 ≤ n → n ≤ 256 → a % 4 = 0 → Delivered m 1 1 8 s h → ∃ (t : State) (ws : List Word), exec (.regRead m a n) s = .next t ∧ ws.length = n
      ∧ ws.head? = some ((s.taken m h).regWord { h with ready := h.ready.tail } a)
      ∧ Answered t m 1 1 stOk (beBytes 4 a ++ beBytes 2 n ++ beBytes 2 0 ++ ws.flatMap fun (w : Word) => beBytes 4 w.toNat))
    ∧ (∀ v : Word, Delivered m 1 2 12 s h → ∃ t, exec (.regWrite m 0x70018 [v]) s = .next t
      ∧ t.evt.mask = BitVec.ofNat 64 (s.evt.mask.toNat / 2 ^ 32 * 2 ^ 32 + v.toNat) ∧ Answered t m 1 2 stOk (wroteOne 0x70018))
    ∧ (∀ v : Word, Delivered m 1 2 12 s h → v.toNat % 8 ≤ 3 → v.toNat / 8 % 8 ≤ 3 → ∃ t, exec (.ethModeChange m v) s = .next t
      ∧ t.eth.cfg = v &&& 0x000FFF3F ∧ Answered t m 1 2 stOk (wroteOne 0x50000))
    ∧ (∀ v : Word, Delivered m 1 2 12 s h → v.toNat / 8 % 4 ≠ 3 → ∃ t, exec (.bypassForce m v) s = .next t
      ∧ t.eth.force = v.toNat / 8 % 4 ∧ t.eth.bypass = (decide (s.eth.oeReady = 0) || decide (v.toNat / 8 % 4 = 1))
      ∧ Answered t m 1 2 stOk (wroteOne 0x50008))
    ∧ (∀ per k, k < 4096 → Delivered m 5 1 8 s h → ∃ t g, exec (.telSub m per k) s = .next t ∧ t.session m.ses = some g
      ∧ g.telMs = min per 3600000 ∧ g.telKinds = (if per = 0 then 0 else k) ∧ Answered t m 5 1 stOk [])
    ∧ (∀ ses g k, s.session ses = some g → g.telMs ≠ 0 → k ≤ 11 → g.telKinds.testBit k = true →
      tget g.telLast 0 k + msecs (g.periodOf k) ≤ s.clk.wtime → ∃ t x, exec (.telRecord ses k) s = .next t ∧ t.session ses = some x
        ∧ tget x.telLast 0 k = s.clk.wtime ∧ g.tx.length < x.tx.length ∧ t.cores = s.cores)
    ∧ (∀ n ps sel, sel ≤ 1 → ps < 65536 → Delivered m 6 1 40 s h → ∃ t, exec (.quote m n ps sel) s = .next t
      ∧ Answered t m 6 1 stOk (s.quoteBody h n ps sel ++ fitBytes 3309 (Config.sign (dig (quoteContext ++ s.quoteBody h n ps sel)))))
    ∧ (Delivered m 6 2 0 s h → ∃ t, exec (.identity m) s = .next t
      ∧ Answered t m 6 2 stOk (leBytes 16 Config.serial ++ fitBytes 1952 Config.deviceKey))
    ∧ (∀ n, 1 ≤ n → n ≤ 128 → serialLt s.evt.tail s.evt.head = true → Delivered m 7 1 8 s h →
      ∃ t, exec (.evtRead m s.evt.tail n) s = .next t ∧
        (let rs := (s.evt.ring.filter fun r => !serialLt r.seq s.evt.tail).take n
         Answered t m 7 1 stOk (beBytes 4 s.evt.tail ++ beBytes 2 rs.length ++ beBytes 2 0 ++ rs.flatMap EvRec.bytes)))
    ∧ (∀ c, Delivered m 7 2 8 s h → ∃ t g, exec (.evtSub m c) s = .next t ∧ t.session m.ses = some g ∧ g.evts = c
      ∧ Answered t m 7 2 stOk [])

/-! ### Images, loads, doffs, adapters -/

/-- Transfers: IMG_START reserves a number and answers it; a block of a head still incomplete is stored at its offset; IMG_CANCEL and 60 s of
silence end a transfer; SPL_LIST answers the objects in digest order and SPL_DELETE discards one not in use (R191, R328, R338). -/
def Obligations.TransfersAndStoredObjects : Prop :=
  ∀ (m : Msg) (h : Session) (s : State)
    , (∀ kind target slot hops total, kind ≤ 4 → target ≤ 2 → hops ≤ 15 → (kind = 2 ↔ target = 2) → (target = 0 → m.part ≤ 15) →
      (if kind = 3 ∧ target = 0 then slot < (s.part m.part).adaptSlots ∧ (tget (s.part m.part).adapt ⟨0, 0⟩ slot).state = 0 else slot = 0xFFFF) →
      (target = 0 → s.doldrums = false) → s.openXfers < 32 → Delivered m 2 1 16 s h →
      ∃ t x, exec (.imgStart m kind target slot hops total) s = .next t ∧ t.xfers = s.xfers ++ [x] ∧ x.id = s.nextXfer ∧ x.ses = m.ses
        ∧ x.kind = kind ∧ x.total = total ∧ x.data = [] ∧ x.verified = false ∧ t.nextXfer = s.nextXfer + 1
        ∧ Answered t m 2 1 stOk (beBytes 4 s.nextXfer ++ beBytes 4 0) ∧ t.parts = s.parts)
    ∧ (∀ id x off data sig, s.xfer id = some x → x.ses = m.ses → x.verified = false → x.headOk = false → off % 64 = 0 → data.length ≤ 8192 →
      off + data.length ≤ headBytes x.kind → off + data.length ≤ x.total → x.conflicts off data = false →
      (x.put off data).have_ 0 (min (headBytes x.kind) x.total) = false → Delivered m 2 2 (16 + data.length) s h →
      ∃ t y, exec (.imgBlock m id off data sig) s = .next t ∧ t.xfer id = some y ∧ y.last = s.clk.wtime
        ∧ (∀ i, i < data.length → tget y.data none (off + i) = data[i]?)
        ∧ (∀ a, a < off ∨ off + data.length ≤ a → tget y.data none a = tget x.data none a)
        ∧ Answered t m 2 2 stOk (beBytes 4 id ++ beBytes 4 0 ++ beBytes 8 off))
    ∧ (∀ id x, s.xfer id = some x → x.ses = m.ses → x.verified = false → Delivered m 2 3 8 s h → ∃ t, exec (.imgCancel m id) s = .next t
      ∧ t.xfer id = none ∧ Answered t m 2 3 stOk [])
    ∧ (∀ id x, s.xfer id = some x → x.verified = false → x.last + secs 60 ≤ s.clk.wtime → ∃ t, exec (.transferTimeout id) s = .next t
      ∧ t.xfer id = none)
    ∧ (∀ kind n first, kind ≤ 1 → 1 ≤ n → n ≤ 64 → Delivered m 2 5 8 s h → ∃ t, exec (.splList m kind n first) s = .next t
      ∧ (let es := ((s.listed kind).drop first).take n
         Answered t m 2 5 stOk (beBytes 4 (s.listed kind).length ++ beBytes 2 es.length ++ beBytes 2 0 ++ es.flatMap s.objEntry))
      ∧ t.spl = s.spl)
    ∧ (∀ kind d o, kind ≤ 1 → (s.listed kind).find? (fun o => decide (o.digest = d)) = some o → s.objFlags o = 0 → Delivered m 2 6 72 s h →
      ∃ t, exec (.splDelete m kind d) s = .next t ∧ t.spl.objs.map (fun x => (x.id, x.digest, x.data)) =
          (s.spl.objs.filter fun x => decide (x.id ≠ o.id)).map (fun x => (x.id, x.digest, x.data))
        ∧ Answered t m 2 6 stOk [])

/-- Loads: a stored container that passes its checks is taken into the partition, which enters LOADING; with every unit of the image written
it is READY; a pending partial container is applied between steps, in APPLYING, with the requests held; an unload frees the partition and zeroes its vaults
(R194, R195, R220, R260, R478). -/
def Obligations.LoadsAndUnloads : Prop :=
  ∀ (m : Msg) (h : Session) (s : State)
    , (∀ d o, let u := s.taken m h
      m.part ≤ 15 → s.doldrums = false → (s.part m.part).standby = [] → u.findObj (fun k => decide (k = .bitstream)) d = some o → headFlag o.data 1 = false →
      u.headFault m.part o.data false false = none → u.commitFault m.part o.data false = none → Delivered m 3 1 64 s h →
      ∃ t, exec (.loadStored m d) s = .next t ∧ (t.part m.part).state = .loading ∧ (t.part m.part).digest = confDigest o.data
        ∧ (t.part m.part).cfg = sectionsOf o.data ∧ (∀ r ∈ rectRegions (headRect o.data), r < 64 → (t.region r).part = some m.part)
        ∧ Answered t m 3 1 stOk [])
    ∧ (∀ p bs, p ≤ 15 → s.modelSource p = some bs → (s.part p).state = .loading → (s.part p).placed = true → (s.part p).repair = none →
      (∀ r ∈ s.allRegions p, pwrUp (s.region r).pwr.state = true) → (s.part p).imageFits bs 1 = true →
      s.vacantOk p bs = true → ∃ t, exec (.weightsLoaded p) s = .next t ∧ (t.part p).state = .ready ∧ (t.part p).wtDigest = (s.part p).model
        ∧ ∀ x ∈ t.xfers, ¬(x.verified = true ∧ x.kind ≤ 1 ∧ x.target = 0 ∧ x.part = p))
    ∧ (∀ p, let x := s.part p
      p ≤ 15 → x.state = .ready → x.pend ≠ [] → x.phase = .none → x.repair = none →
      (x.applying = 0 → x.held = 0 → ∃ t, exec (.partialApply p) s = .next t ∧ (t.part p).applying = 1 ∧ (t.part p).held = 3
        ∧ (t.part p).cfg = x.cfg ∧ (t.part p).pend = x.pend)
      ∧ (x.applying = 1 → ∃ t, exec (.partialApply p) s = .next t ∧ (t.part p).state = .ready ∧ (t.part p).applying = 0 ∧ (t.part p).pend = [] ∧ (t.part p).cfg = mergeSections x.cfg x.pend ∧ (t.part p).digest = x.pendDigest))
    ∧ (∀ force, m.part ≤ 15 → s.doldrums = false → (s.part m.part).state = .ready ∨ (s.part m.part).state = .down →
      (force = false → s.partReqs m.part (fun r => decide (r.state.code ≤ 4)) = []) → Delivered m 3 2 8 s h →
      ∃ t, exec (if force then .forcedUnload m else .unload m) s = .next t ∧ (t.part m.part).state = .empty
        ∧ (∀ r ∈ s.partRegions m.part, (t.region r).part = none ∧ ∀ i, i < 1152 → (t.vault (1152 * r + i)).data = [])
        ∧ Answered t m 3 2 stOk [])

/-- Doffs: one that fits begins, staged or in place; the switch replaces the pointer table and raises the epoch; a unit copied in place, while
its requests are held, raises it too; a staged doff may be cancelled (R268, R269, R270). -/
def Obligations.DoffsReplaceWeights : Prop :=
  ∀ (m : Msg) (h : Session) (s : State) (d : Nat) (bs : List Byte), let x := s.part m.part
    let ready := m.part ≤ 15 ∧ s.doldrums = false ∧ x.state = .ready ∧ (s.taken m h).imageSource d = some bs ∧ imgFlag bs 1 = true
      ∧ x.imageFits bs 4 = true ∧ (s.taken m h).vacantOk m.part bs = true ∧ x.doff.state = 0 ∧ x.oldLive = false
    (∀ dst, ready → x.stagingSlots (imgUnits bs) [] = some dst → Delivered m 3 3 72 s h → ∃ t, exec (.doffStaged m d) s = .next t
      ∧ (t.part m.part).doff = { state := 2, inPlace := false, image := d, units := imgUnits bs, dst := dst, done := (imgUnits bs).length, data := [], again := [] }
      ∧ (t.part m.part).ptrs = x.ptrs ∧ (t.part m.part).epoch = x.epoch ∧ Answered t m 3 3 stOk [])
    ∧ (ready → Delivered m 3 3 72 s h → ∃ t, exec (.doffInPlace m d) s = .next t
      ∧ (t.part m.part).doff = { state := 1, inPlace := true, image := d, units := imgUnits bs, dst := [], done := 0, data := bs, again := [] }
      ∧ t.vaults = s.vaults ∧ Answered t m 3 3 stOk [])
    ∧ (∀ p, let y := s.part p
      p ≤ 15 → y.state = .ready → y.doff.state = 2 → y.oldLive = false → y.held = 0 → y.repair = none → ∃ t, exec (.doffSwitch p) s = .next t
        ∧ (t.part p).epoch = (y.epoch + 1) % 256 ∧ (t.part p).wtDigest = y.doff.image
        ∧ (t.part p).ptrs = (y.doff.units.zip y.doff.dst).foldl (fun t (u, b) => repoint t u b y.doff.image) y.ptrs
        ∧ (y.phase ≠ .none → (t.part p).ptrsB = y.ptrs ∧ (t.part p).oldLive = true))
    ∧ (∀ p, let y := s.part p
      p ≤ 15 → y.state = .ready → y.doff.inPlace = true → y.phase = .none → y.repair = none →
      (y.doff.state = 1 → y.held = 0 → y.applying = 0 → ∃ t, exec (.inPlaceUnitHold p) s = .next t ∧ (t.part p).held = 4
        ∧ (t.part p).doff = { y.doff with state := 3 } ∧ (t.part p).epoch = y.epoch)
      ∧ (∀ u, y.doff.state = 3 → y.doff.units[y.doff.done]? = some u → ((s.imageSource y.doff.image).isSome ∨ s.spareless p = false) →
        ∃ t, exec (.inPlaceUnitHold p) s = .next t ∧ (t.part p).epoch = (y.epoch + 1) % 256 ∧ (t.part p).doffCnt = satInc y.doffCnt
          ∧ (y.doff.done + 1 < y.doff.units.length →
            (t.part p).doff = { y.doff with state := 1, done := y.doff.done + 1 } ∧ (t.part p).mixed = true))
      ∧ (y.doff.state = 4 → (s.imageSource y.doff.image).isSome → ∃ t, exec (.inPlaceUnitHold p) s = .next t
        ∧ (t.part p).doff = { y.doff with state := 1, again := [] } ∧ (t.part p).epoch = y.epoch))
    ∧ (m.part ≤ 15 → s.doldrums = false → x.doff.state ≠ 0 → x.doff.inPlace = false → x.doffWait = [] → Delivered m 3 4 0 s h →
      ∃ t, exec (.doffCancel m) s = .next t ∧ (t.part m.part).doff = .idle ∧ (t.part m.part).ptrs = x.ptrs ∧ Answered t m 3 4 stOk [])

/-- Adapter slots by their operations, and tuning requests (R264, R266, R323). -/
def Obligations.AdapterSlotsAndTuning : Prop :=
  ∀ (m : Msg) (h : Session) (s : State) (slot : Nat), let x := s.part m.part; let a := tget (s.part m.part).adapt ⟨0, 0⟩ slot
    m.part ≤ 15 → s.doldrums = false → x.loaded = true → slot < x.adaptSlots →
    (∀ y ∈ s.xfers, ¬(y.kind = 3 ∧ y.target = 0 ∧ y.part = m.part ∧ y.slot = slot ∧ y.holds = true)) →
    let after := fun (t : State) (n : Nat) => (tget (t.part m.part).adapt ⟨0, 0⟩ slot).state = n
      ∧ (∀ k, k ≠ slot → (tget x.adapt ⟨0, 0⟩ k).state ≠ 3 → tget (t.part m.part).adapt ⟨0, 0⟩ k = tget x.adapt ⟨0, 0⟩ k)
      ∧ Answered t m 3 5 stOk (beBytes 1 n ++ beBytes 7 0)
    (Delivered m 3 5 8 s h → a.state = 1 → ∃ t, exec (.adapterSetReady m slot) s = .next t ∧ after t 2)
    ∧ (Delivered m 3 5 8 s h → a.state = 2 → ∃ t, exec (.adapterRetire m slot) s = .next t
      ∧ after t (if (s.partReqs m.part fun r => r.live && decide (r.par.adapter = slot)) = [] then 0 else 3))
    ∧ (Delivered m 3 5 8 s h → a.state = 1 → ∃ t, exec (.adapterRetire m slot) s = .next t ∧ after t 0)
    ∧ (Delivered m 3 5 8 s h → a.state = 1 → ∃ t, exec (.adapterNameTuning m slot) s = .next t ∧ after t 1
      ∧ (t.part m.part).tuneSlot = some slot)
    ∧ (∀ steps ids idx, Delivered m 3 6 (8 + 4 * ids.length) s h → x.tuneSlot = some slot → x.tune ≠ [] → steps ≠ 0 → ids ≠ [] →
      ids.map s.findReq = idx.map some → (∀ i ∈ idx, (s.req i).par.part = m.part ∧ (s.req i).state = .paused
        ∧ (h.role ≠ 0 ∨ (s.req i).par.tenant = h.tenant)) → ∃ t, exec (.tune m slot steps ids) s = .next t
        ∧ (t.part m.part).tunes = x.tunes ++ [{ slot := slot, steps := steps, reqs := idx }] ∧ Answered t m 3 6 stOk [])

/-! ### Requests -/

/-- SUBMIT that passes the checks takes a free entry and answers its identifier; PROMPT adds the next tokens; READ, STATUS and CLAIM answer
for a request that exists; a refused SUBMIT answers the status of the first check that fails (R276, R277, R292, R293, R477). -/
def Obligations.RequestMessages : Prop :=
  ∀ (m : Msg) (h : Session) (s : State), s.doldrums = false → m.part ≤ 15 →
    let mine := fun (id i : Nat) => s.findReq id = some i ∧ (h.role = 0 → (s.req i).par.tenant = h.tenant)
    (∀ q toks, 1 ≤ toks.length → toks.length ≤ 2160 → q.flags < 32 → (h.role = 0 → q.tenant = h.tenant) → s.mayUse h m.part = true →
      s.admission m.part q toks.length = stOk → (∃ i, i < 131072 ∧ (s.req i).used = false) → Delivered m 4 1 (64 + 4 * toks.length) s h →
      ∃ t i, exec (.submit m q toks) s = .next t ∧ i < 131072 ∧ (s.req i).used = false ∧ (t.req i).used = true ∧ (t.req i).hist = toks
        ∧ (t.req i).par = { q with part := m.part } ∧ (t.req i).owner = m.ses ∧ (t.req i).state = .queued ∧ (t.req i).turnGot = toks.length
        ∧ (∀ j, j ≠ i → t.req j = s.req j) ∧ Answered t m 4 1 stOk (beBytes 4 (t.reqId i) ++ beBytes 4 0 ++ beBytes 8 q.tag))
    ∧ (∀ q toks, 1 ≤ toks.length → toks.length ≤ 2160 → q.flags < 32 → (h.role = 0 → q.tenant = h.tenant) → s.mayUse h m.part = true →
      s.admission m.part q toks.length ≠ stOk → Delivered m 4 1 (64 + 4 * toks.length) s h →
      ∃ t, exec (.submit m q toks) s = .next t ∧ t.srv = s.srv ∧ Answered t m 4 1 (s.admission m.part q toks.length) [])
    ∧ (∀ id i toks, mine id i → (s.req i).state.isOver = false → (s.req i).turnGot + toks.length ≤ (s.req i).turnLen → (s.req i).nextSeq = 0 →
      Delivered m 4 2 (16 + 4 * toks.length) s h → ∃ t, exec (.prompt m id (s.req i).turnGot toks) s = .next t
        ∧ (t.req i).hist = (s.req i).hist ++ toks ∧ (t.req i).turnGot = (s.req i).turnGot + toks.length ∧ (∀ j, j ≠ i → t.req j = s.req j)
        ∧ Answered t m 4 2 stOk (beBytes 4 id ++ beBytes 4 ((s.req i).turnGot + toks.length)))
    ∧ (∀ id i n c, mine id i → n < (s.req i).nextSeq → (s.req i).chunks.find? (fun c => decide (c.seq = n)) = some c → Delivered m 4 3 8 s h →
      ∃ t, exec (.read m id n) s = .next t ∧ t.srv = s.srv ∧ Answered t m 4 3 stOk (entryBytes id 0 (s.req i).par.tag c.bytes))
    ∧ (∀ id i, mine id i → (s.req i).state = .spin → Delivered m 4 5 8 s h → ∃ t, exec (.status m id) s = .next t ∧ t.srv = s.srv
      ∧ Answered t m 4 5 stOk (beBytes 4 id ++ beBytes 1 2 ++ beBytes 1 0 ++ beBytes 2 ((s.req i).kvExpired.toNat + 2 * (s.req i).histLost.toNat)
        ++ beBytes 4 (if (s.req i).nextSeq = 0 then 0xFFFFFFFF else (s.req i).nextSeq - 1) ++ beBytes 4 (s.req i).positions
        ++ beBytes 8 (s.req i).par.tag ++ beBytes 4 (s.req i).frames.length ++ beBytes 4 0))
    ∧ (∀ id i, mine id i → Delivered m 4 9 8 s h → ∃ t, exec (.claim m id) s = .next t ∧ (t.req i) = { s.req i with owner := m.ses }
      ∧ (∀ j, j ≠ i → t.req j = s.req j) ∧ Answered t m 4 9 stOk (s.stateBody id i))

/-- CANCEL, PAUSE, RELEASE and RESUME by the state of the request: at once where no step holds it, else pending
(R281, R295, R298, R301, R476). -/
def Obligations.RequestStateMessages : Prop :=
  ∀ (m : Msg) (h : Session) (s : State) (id i : Nat), s.doldrums = false → m.part ≤ 15 → s.findReq id = some i →
    (h.role = 0 → (s.req i).par.tenant = h.tenant) → let r := s.req i
    (Delivered m 4 6 8 s h → r.state.isOver = false → s.inStep i = true → ∃ t, exec (.cancel m id) s = .next t
      ∧ t.req i = { r with cancelPend := true } ∧ Answered t m 4 6 stOk (s.stateBody id i))
    ∧ (Delivered m 4 6 8 s h → r.state.isOver = false → s.inStep i = false → r.used = true → ∃ t, exec (.cancel m id) s = .next t
      ∧ (t.req i).state = .cancelled ∧ (t.req i).pages = [] ∧ (t.req i).hist = r.hist ∧ (t.req i).nextSeq = r.nextSeq + 1)
    ∧ (Delivered m 4 7 8 s h → r.state = .spin → r.reshard = false → s.inStep i = false → ∃ t, exec (.pause m id) s = .next t
      ∧ (t.req i).state = .paused ∧ (t.req i).pausedAt = s.clk.wtime ∧ (t.req i).pages = r.pages
      ∧ Answered t m 4 7 stOk (beBytes 4 id ++ beBytes 1 4 ++ beBytes 3 0))
    ∧ (Delivered m 4 7 8 s h → r.state = .spin → s.inStep i = true → ∃ t, exec (.pause m id) s = .next t
      ∧ t.req i = { r with pausePend := true } ∧ Answered t m 4 7 stOk (s.stateBody id i))
    ∧ (Delivered m 4 8 8 s h → r.state.isOver = true → ∃ t, exec (.release m id) s = .next t ∧ (t.req i).used = false
      ∧ (t.req i).gen = (if r.gen ≥ 32767 then 1 else r.gen + 1) ∧ Answered t m 4 8 stOk (s.stateBody id i))
    ∧ (Delivered m 4 8 8 s h → r.state = .paused → r.used = true → ∃ t, exec (.release m id) s = .next t ∧ (t.req i).state = .done
      ∧ (t.req i).pages = [])
    ∧ (∀ append v toks, let x := s.part r.par.part
      Delivered m 4 0xA (48 + 4 * toks.length) s h → s.mayUse h r.par.part = true → s.mayUse h m.part = true → (s.tenant r.par.tenant).admitOk = true →
      r.state = .paused → r.spoolingIn = false →
      (x.state = .ready ∨ x.state = .applying) → x.held = 0 → 1 ≤ r.par.maxNew → r.par.maxNew ≤ x.maxNew → tempOk r.par.temp = true →
      topPOk r.par.topP = true → r.par.topK ≤ 1024 → toks.length ≤ append → s.fits r.par.part (r.positions + append + r.par.maxNew) = true →
      ∃ t, exec (.resume m id append 0 v toks) s = .next t ∧ (t.req i).hist = r.hist ++ toks ∧ (t.req i).turnLen = append
        ∧ (t.req i).state = (if append = 0 then .spin else .ingest) ∧ (t.req i).newTok = 0
        ∧ Answered t m 4 0xA stOk (beBytes 4 id ++ beBytes 1 (if append = 0 then 2 else 1) ++ beBytes 3 0))

/-- Spooling and the lifetimes of a request: each takes effect once its time has come, and not before (R276, R281, R294, R296, R297,
R298); the buckets rise by RATE ÷ 1,000 up to DEPTH every millisecond (R290). -/
def Obligations.RequestLifetimes : Prop :=
  ∀ (i : Nat) (s : State), i < 131072 → let r := s.req i; let x := s.part (s.req i).par.part; let now := s.clk.wtime
    let ends := fun (c : Instr) (st : ReqState) => ∃ t, exec c s = .next t ∧ (t.req i).state = st ∧ (t.req i).pages = [] ∧ (t.req i).hist = r.hist
    (r.live = true → r.hist.length < r.par.promptLen → r.lastBlock + secs 60 ≤ now → ends (.promptTimeout i) .failed)
    ∧ (r.used = true → r.state.isOver = true → r.endedAt + secs s.srv.resultTtl ≤ now → ∃ t, exec (.resultTtlExpiry i) s = .next t
      ∧ (t.req i).used = false ∧ (t.req i).hist = [])
    ∧ (r.state.isOver = true → now < r.endedAt + secs s.srv.resultTtl → exec (.resultTtlExpiry i) s = .next s)
    ∧ (r.state = .spooled → r.used = true → r.spoolingIn = false → r.idleSince + secs (3600 * s.srv.histTtl) ≤ now → ends (.histTtlExpiry i) .done)
    ∧ (r.state = .spooled → r.spoolingIn = false → r.kvCard ≠ none →
      r.durableAt + secs (if r.par.kvTtl ≠ 0 then r.par.kvTtl else x.spool.toNat / 2 ^ 15) ≤ now →
      ∃ t, exec (.kvTtlExpiry i) s = .next t ∧ (t.req i).kvExpired = true ∧ (t.req i).kvCard = none ∧ (t.req i).state = .spooled
        ∧ (t.req i).hist = r.hist ∧ ∀ o ∈ t.spl.objs, ¬(o.kind = .kv ∧ o.digest = i))
    ∧ (∀ c, r.state = .paused → r.spooling = none → r.flag 2 = false → r.spoolingIn = false → x.spool.toNat % 2 ^ 15 ≠ 0 → r.retryAt = 0 →
      r.pausedAt + msecs (x.spool.toNat % 2 ^ 15) ≤ now → (s.kvAdmit i (x.recordBytes (r.pages.filter Page.resident).length r.pages.length)).2 = some c →
      ∃ t, exec (.pauseDwellExpiry i) s = .next t ∧ (t.req i).spooling = some c ∧ (t.req i).state = .paused)
    ∧ (∀ c, r.state = .paused → r.spooling = none → r.flag 2 = false → r.spoolingIn = false → r.retryAt ≠ 0 → r.retryAt ≤ now →
      (s.kvAdmit i (x.recordBytes (r.pages.filter Page.resident).length r.pages.length)).2 = some c → ∃ t, exec (.spoolRetry i) s = .next t ∧ (t.req i).spooling = some c
        ∧ (t.req i).retryAt = 0)
    ∧ (∀ c, r.spooling = some c → r.state = .paused → ∃ t, exec (.spoolOutDurable i) s = .next t ∧ (t.req i).state = .spooled
      ∧ (t.req i).slot = false ∧ (t.req i).kvCard = some c ∧ (∀ g ∈ (t.req i).pages, g.state ≠ 1) ∧ (t.req i).hist = r.hist)
    ∧ (∀ o, r.state = .spooled → r.spoolingIn = true → x.held = 0 → r.turnLen = 0 →
      s.spl.objs.find? (fun o => decide (o.kind = .kv) && decide (o.digest = i)) = some o → ∃ t, exec (.spoolInComplete i) s = .next t
        ∧ (t.req i).state = .spin ∧ (t.req i).spoolingIn = false ∧ (t.req i).hist = r.hist ∧ (t.req i).pages.length = r.pages.length)
    ∧ (∀ w, r.used = true → r.waitSince = some w → r.state = .spin → r.reshard = false → s.inStep i = false → w + x.spoolWait ≤ now →
      ends (.spoolWaitExpiry i) (if r.nextSeq = 0 then .failed else .done))
    ∧ (∀ w, r.used = true → r.waitSince = some w → r.state = .queued → s.inStep i = false → w + x.ingestWait ≤ now → r.reshard = false →
      ends (.ingestWaitExpiry i) (if r.nextSeq = 0 then .failed else .done))
    ∧ (twf Tenant.reset 0 s.srv.tenants = true → ∃ t, exec .bucketRefill s = .next t ∧ t.parts = s.parts ∧ t.srv.reqs = s.srv.reqs
      ∧ ∀ k, t.tenant k = (s.tenant k).refill)

/-- ABORT of one partition discards its step, sends its requests away and answers; ABORT of the device does so for every partition
(R300, R428). -/
def Obligations.AbortsStopPartitions : Prop :=
  ∀ (m : Msg) (h : Session) (s : State)
    , (m.part ≤ 15 → (s.part m.part).state = .ready → (s.part m.part).repair = none → (s.part m.part).applying = 0 →
      (s.part m.part).doff.state ≠ 3 → Delivered m 8 1 8 s h →
      ∃ t n, exec (.abortPartition m) s = .next t ∧ (t.part m.part).phase = .none ∧ (t.part m.part).state = .ready
        ∧ (∀ i ∈ s.partReqs m.part (fun r => decide (r.state.code ≤ 3)), (t.req i).state = .cancelled)
        ∧ (∀ c ∈ s.runners m.part, (t.core c).run ≠ .running ∨ (s.part m.part).phase = .none)
        ∧ n ≤ 2000 ∧ Answered t m 8 1 stOk (beBytes 1 0 ++ beBytes 3 0 ++ beBytes 4 n))
    ∧ ((∀ p, (s.part p).repair = none ∧ (s.part p).applying = 0 ∧ (s.part p).doff.state ≠ 3) → Delivered m 8 1 8 s h → ∃ t n, exec (.abortDevice m) s = .next t
        ∧ (∀ p, p < 16 → (s.part p).state = .ready → (t.part p).phase = .none)
        ∧ n ≤ 10000 ∧ Answered t m 8 1 stOk (beBytes 1 1 ++ beBytes 3 0 ++ beBytes 4 n))

/-! ### Ethernet, firmware relay -/

/-- Links go down and come up one at a time with an event; an optical engine's REQ powers it down and lifts it back, removal drops its
links, and an inserted engine is powered only if its firmware is compatible; the bypass follows the engines (R307, R308, R332). -/
def Obligations.LinksAndOpticalEngines : Prop :=
  ∀ (s : State),
    (∀ i, i ≤ 16 → s.eth.link.getLsbD i = true → ∃ t, exec (.linkDown i) s = .next t ∧ EventCounted 0x3F s t
      ∧ (∀ j, t.eth.link.getLsbD j = (decide (j ≠ i) && s.eth.link.getLsbD j)) ∧ t.cores = s.cores ∧ t.parts = s.parts)
    ∧ (∀ i, i ≤ 16 → s.eth.link.getLsbD i = false → s.canTrain i = true → ∃ t, exec (.linkUp i) s = .next t ∧ EventCounted 0x3F s t
      ∧ (∀ j, j < 17 → t.eth.link.getLsbD j = (decide (j = i) || s.eth.link.getLsbD j)) ∧ t.cores = s.cores)
    ∧ (∀ m h p (v : Word), p < 2 → Delivered m 1 2 12 s h → v.getLsbD p = true → s.eth.req.getLsbD p = false →
      v.getLsbD (1 - p) = s.eth.req.getLsbD (1 - p) → ∃ t, exec (.opticalEngineRemovalRequest m v) s = .next t
        ∧ t.eth.req.getLsbD p = true ∧ t.eth.safe.getLsbD p = true ∧ t.eth.oeReady.getLsbD p = false
        ∧ (∀ i, i < 8 → t.eth.link.getLsbD (8 * p + i) = false)
        ∧ t.eth.bypass = (decide (t.eth.oeReady = 0) || decide (s.eth.force = 1)) ∧ Answered t m 1 2 stOk (wroteOne 0x5000C))
    ∧ (∀ m h p (v : Word), p < 2 → Delivered m 1 2 12 s h → v.getLsbD p = false → s.eth.req.getLsbD p = true →
      v.getLsbD (1 - p) = s.eth.req.getLsbD (1 - p) → s.eth.present.getLsbD p = true → s.eth.oeGood.getLsbD p = true → s.edgeUp = true →
      ∃ t, exec (.opticalEngineReqClear m v) s = .next t ∧ t.eth.req.getLsbD p = false ∧ t.eth.oeReady.getLsbD p = true
        ∧ t.eth.safe.getLsbD p = false ∧ t.eth.bypass = decide (s.eth.force = 1) ∧ Answered t m 1 2 stOk (wroteOne 0x5000C))
    ∧ (∀ p, p < 2 → s.eth.present.getLsbD p = true → ∃ t, exec (.opticalEngineRemoved p) s = .next t ∧ t.eth.present.getLsbD p = false
      ∧ t.eth.oeReady.getLsbD p = false ∧ (∀ i, i < 8 → t.eth.link.getLsbD (8 * p + i) = false)
      ∧ t.eth.bypass = (decide (t.eth.oeReady = 0) || decide (s.eth.force = 1)) ∧ t.cores = s.cores)
    ∧ (∀ p f, p < 2 → s.eth.present.getLsbD p = false → ∃ t, exec (.opticalEngineInserted p f) s = .next t ∧ t.eth.present.getLsbD p = true
      ∧ (s.deviceOk 5 f = true → s.eth.req.getLsbD p = false → s.edgeUp = true → t.eth.oeReady.getLsbD p = true)
      ∧ (s.deviceOk 5 f = false → t.eth.oeReady = s.eth.oeReady ∧ t.eth.oeGood.getLsbD p = false) ∧ t.cores = s.cores)

/-- Forwarding, flow control, protocol answers, HELLO and the relay of firmware from a learned neighbour, and the addresses the
management port takes (R305, R309, R316, R329). -/
def Obligations.ForwardingAndRelay : Prop :=
  ∀ (s : State),
    (∀ i dst src prio, i < 16 → s.forwards = true → s.eth.link.getLsbD i = true → s.eth.link.getLsbD ((i + 8) % 16) = true →
      ownMac src = false → ownMac dst = false → let k := 8 * ((i + 8) % 16) + prio % 8
      ∃ t, exec (.frameForward i dst src prio) s = .next t ∧ t = { s with eth := t.eth }
        ∧ (tget s.eth.paused 0 k ≠ 1 → t.eth = { s.eth with fwd := s.eth.fwd + 1 })
        ∧ (tget s.eth.paused 0 k = 1 → t.eth.fwd = s.eth.fwd ∧ ∀ j, tget t.eth.egress 0 j = tget s.eth.egress 0 j + (if j = k then 1 else 0)))
    ∧ (∀ i (en on_ : BitVec 8), i ≤ 16 → ∃ t, exec (.pfcPauseFrame i en on_) s = .next t ∧ t = { s with eth := t.eth }
      ∧ (∀ n, n < 8 → (en.getLsbD n && s.eth.pfcEn.getLsbD n) = true → tget t.eth.paused 0 (8 * i + n) = (on_.getLsbD n).toNat
        ∧ (on_.getLsbD n = false → tget t.eth.egress 0 (8 * i + n) = 0))
      ∧ (∀ n, n < 8 → (en.getLsbD n && s.eth.pfcEn.getLsbD n) = false → tget t.eth.paused 0 (8 * i + n) = tget s.eth.paused 0 (8 * i + n)))
    ∧ (∀ i tag, i ≤ 16 → s.accepts i tag = true → ∃ t, exec (.protocolAnswer i tag) s = .next t
      ∧ t = { s with eth := { s.eth with answers := s.eth.answers + 1 } })
    ∧ (s.eth.relayEn = true → s.eth.helloAt + secs 1 ≤ s.clk.wtime → ∃ t, exec .helloSend s = .next t ∧ t.eth.hellos = s.eth.hellos + 1
      ∧ t.eth.helloAt = s.clk.wtime ∧ t.eth.relayOut = s.eth.relayOut ++ (if s.eth.link.getLsbD 0 then [(0, 1)] else [])
        ++ (if s.eth.link.getLsbD 8 then [(1, 1)] else []) ∧ t.cores = s.cores)
    ∧ (∀ p n, p < 2 → s.eth.relayEn = true → s.eth.link.getLsbD (8 * p) = true → ∃ t, exec (.hello p n 0) s = .next t
      ∧ tget t.eth.neigh 0 p = n % 2 ^ 128 + 1 ∧ (∀ q, q ≠ p → tget t.eth.neigh 0 q = tget s.eth.neigh 0 q) ∧ t = { s with eth := t.eth })
    ∧ (∀ p n hops total, p < 2 → s.eth.relayEn = true → tget s.eth.neigh 0 p = n % 2 ^ 128 + 1 → hops ≤ 15 → s.openXfers < 32 →
      ∃ t x, exec (.rlyStart p n 2 hops total) s = .next t ∧ t.xfers = s.xfers ++ [x] ∧ x.kind = 2 ∧ x.id = s.nextXfer ∧ x.ses = 0
        ∧ x.total = total ∧ x.hops = hops ∧ x.data = [] ∧ t.boot = s.boot)
    ∧ (∀ p n kind hops total, p < 2 → tget s.eth.neigh 0 p ≠ n % 2 ^ 128 + 1 ∨ kind ≠ 2 → exec (.rlyStart p n kind hops total) s = .next s)
    ∧ (∀ id x off data sig, s.xfer id = some x → x.ses = 0 → x.verified = false → x.headOk = false → off % 64 = 0 → data.length ≤ 8192 →
      off + data.length ≤ headBytes x.kind → off + data.length ≤ x.total → x.conflicts off data = false →
      (x.put off data).have_ 0 (min (headBytes x.kind) x.total) = false → ∃ t y, exec (.rlyBlock id off data sig) s = .next t
        ∧ t.xfer id = some y ∧ y.last = s.clk.wtime ∧ (∀ i, i < data.length → tget y.data none (off + i) = data[i]?) ∧ t.boot = s.boot)
    ∧ (∀ id x, s.xfer id = some x → x.ses = 0 → x.verified = true → ∃ t, exec (.rlyDone id) s = .next t ∧ t.xfer id = none
      ∧ (∀ r ∈ t.eth.relays, r.xfer ≠ id) ∧ (s.boot.relayAct = false → t.boot = s.boot)
      ∧ (s.boot.relayAct = true → (s.comp x.slot).state = 2 → x.slot = 1 → (t.comp 1).state = 3 ∧ (t.comp 1).active = (s.comp 1).other))
    ∧ (∀ ip4 n ip6, let f := s.iface 16
      s.eth.link.getLsbD 16 = true → f.en = true → f.dhcp = true → n ≤ 32 → ip6.length = 4 → f.man4 = false → f.man6 = false →
      ∃ t, exec (.dhcpv4AndSlaac ip4 n ip6) s = .next t ∧ t.iface 16 = { f with ip4 := ip4, prefix4 := n, ip6 := ip6 }
        ∧ (∀ i, i ≠ 16 → t.iface i = s.iface i))

/-! ### Clocks and time -/

/-- Stretches count; eight in a row above K_floor step the ratio down; stretching at K_floor is reported and raises the set point, and
at its top for 10 s makes the region unusable; quiet regions and starting clocks step the ratio up (R358, R359, R360, R378). -/
def Obligations.RegionClockRatio : Prop :=
  ∀ (r : Nat) (s : State), r < 64 → let c := (s.region r).clk
    (∀ next, c.k ≠ 0 → (next = true → c.consec < 8 ∨ c.k ≤ c.kFloor) → ∃ t, exec (.droopTrip r next) s = .next t
      ∧ (t.region r).clk.stretch = satInc c.stretch ∧ (t.region r).clk.consec = (if next then min 8 (c.consec + 1) else 1)
      ∧ (t.region r).clk.k = c.k ∧ (∀ q, q ≠ r → t.region q = s.region q) ∧ t = { s with regions := t.regions })
    ∧ (8 ≤ c.consec → c.kFloor < c.k → ∃ t, exec (.ratioStepDown r) s = .next t ∧ (t.region r).clk.k = c.k - 1
      ∧ (t.region r).clk.consec = 0 ∧ (t.region r).clk.down = min 0xFFFF (c.down + 1) ∧ EventCounted 0x26 s t
      ∧ (∀ q, q ≠ r → t.region q = s.region q) ∧ t.cores = s.cores)
    ∧ (c.k ≠ 0 → c.k ≤ c.kFloor → 8 ≤ c.consec → c.floorHit = 0 → (s.region r).pwr.setpt < 850 →
      ∃ t, exec (.floorStretchReport r) s = .next t ∧ EventCounted 0x27 s t
        ∧ (t.region r).pwr.setpt = min 850 ((s.region r).pwr.setpt + 10) ∧ (t.region r).clk.k = c.k ∧ t.parts = s.parts)
    ∧ (∀ since, c.k ≠ 0 → c.k ≤ c.kFloor → 8 ≤ c.consec → c.floorHit ≠ 0 → c.floorHit + msecs 1 ≤ s.clk.wtime + 1 →
      s.clk.wtime + 1 ≤ c.floorHit + msecs 2 → 850 ≤ (s.region r).pwr.setpt → (s.region r).pwr.highSince = some since →
      since + secs 10 ≤ s.clk.wtime → ∃ t, exec (.floorStretchReport r) s = .next t ∧ (t.region r).pwr.marginal = true
        ∧ (t.region r).agt.unusable = true)
    ∧ (c.k ≠ 0 → c.ramp = false → c.k < c.kCap → 131072 ≤ (s.clk.wtime - c.quiet) * c.k → ∃ t, exec (.ratioStepUp r) s = .next t
      ∧ (t.region r).clk.k = c.k + 1 ∧ (t.region r).clk.quiet = s.clk.wtime ∧ (t.region r).clk.up = min 0xFFFF (c.up + 1)
      ∧ EventCounted 0x26 s t ∧ t.cores = s.cores)
    ∧ (c.ramp = true → c.quiet + usecs 10 ≤ s.clk.wtime → ∃ t, exec (.clockStartRamp r) s = .next t
      ∧ (c.k < c.kCap → (t.region r).clk.k = c.k + 1 ∧ (t.region r).clk.ramp = decide (c.k + 1 < c.kCap) ∧ EventCounted 0x26 s t)
      ∧ (c.kCap ≤ c.k → (t.region r).clk.k = c.k ∧ (t.region r).clk.ramp = false))

/-- A monitored window outside its thresholds stops what its domain clocks, with class 0x27: a region's clock and its running step, a
port's links, the management link, or the whole wafer; the restarts undo it (R362, R363). -/
def Obligations.ClockFaultsAndRestarts : Prop :=
  ∀ (s : State), let now := s.clk.wtime
    (∀ r kHz noEdge, r < 64 → (s.region r).clk.k ≠ 0 → noEdge = true ∨ s.offFrequency r kHz = true → tget s.clk.lastFault 0 r = 0 →
      ∃ t, exec (.clockMonitorWindow r kHz noEdge) s = .next t ∧ (t.region r).clk.k = 0 ∧ (t.region r).clk.restartAt = now + 1
        ∧ t.clk.domFault.getLsbD r = true ∧ EventCounted 0x27 s t
        ∧ ∀ p, (s.region r).part = some p → (s.part p).phase = .running → (t.part p).phase = .frozen)
    ∧ (∀ d kHz noEdge, d < 72 → (d < 64 → (s.region d).clk.k ≠ 0) → noEdge = false → s.offFrequency d kHz = false →
      exec (.clockMonitorWindow d kHz noEdge) s = .next s)
    ∧ (∀ p kHz, p < 2 → ∃ t, exec (.clockMonitorWindow (68 + p) kHz true) s = .next t ∧ t.clk.ethRetry.getLsbD p = true
      ∧ (∀ i, i < 8 → t.eth.link.getLsbD (8 * p + i) = false) ∧ t.cores = s.cores)
    ∧ (∀ p, p < 2 → s.clk.ethRetry.getLsbD p = true → ∃ t, exec (.ethernetReferenceRetry p true) s = .next t
      ∧ t.clk.ethRetry.getLsbD p = false ∧ t.clk.ethRetry.getLsbD (1 - p) = s.clk.ethRetry.getLsbD (1 - p) ∧ t = { s with clk := t.clk })
    ∧ (∀ r, r < 64 → (s.region r).clk.restartAt ≠ 0 → (s.region r).pwr.state = 3 → (s.region r).clk.k = 0 →
      ∃ t, exec (.regionClockRestart r) s = .next t ∧ (t.region r).clk.restartAt = 0 ∧ (t.region r).clk.k = 8
        ∧ ∀ p, (s.region r).part = some p → (s.part p).phase = .frozen → (s.part p).repair = none → (s.part p).held = 0 →
            (∀ q ∈ s.partRegions p, q ≠ r → (s.region q).clk.restartAt = 0) → (t.part p).phase = if t.listsOut p then .lists else .running)
    ∧ (∀ ref, s.clk.rootLock = true → s.boot.start ≠ 2 → (ref = false ∨ s.boot.start ≠ 1) → ∃ t, exec (.rootPllUnlock ref) s = .next t ∧ t.clk.rootLock = false
      ∧ t.clk.refOk = !ref ∧ t.clk.selfRefresh = true ∧ t.clk.mclkFallback = true ∧ (∀ r, r < 64 → (t.region r).clk.k = 0))
    ∧ (s.clk.rootLock = false → s.clk.selfRefresh = true → s.boot.start ≠ 3 → s.boot.start ≠ 4 → s.clk.lockAt + msecs 10 ≤ now →
      (s.startable → ∃ t, exec (.pllLockRetry true) s = .next t ∧ t.clk.rootLock = true ∧ t.clk.selfRefresh = false ∧ t.vaults = s.vaults ∧ t.boot.start = 1
        ∧ (∀ p, p < 16 → (t.part p).state = .empty))
      ∧ (s.clk.lockTries < 2 → ∃ t, exec (.pllLockRetry false) s = .next t
        ∧ t = { s with clk := { s.clk with lockTries := s.clk.lockTries + 1, lockAt := now } }))

/-- WTIME checkpoints every 2³⁹ ticks; in FREE a valid exchange or edge steps the mapping and acquires; LOCKED without one for 3 s goes
to HOLDOVER keeping its rate; a stray or missing PPS edge only raises class 0x27 (R365, R368, R369, R370). -/
def Obligations.TimeAlignment : Prop :=
  ∀ (s : State), let now := s.clk.wtime
    let acquires := fun (t : State) => t.clk.alnState = 1 ∧ t.clk.alnW0 = now ∧ t.clk.alnSeq = s.clk.alnSeq + 2 ∧ t.clk.alnLast = now
      ∧ t.clk.alnRate = s.clk.alnRate ∧ t.clk.wtime = now ∧ EventCounted 0x27 s t ∧ t.cores = s.cores
    (s.edgeUp = true → s.clk.checkpoint + 2 ^ 39 ≤ now → exec .wtimeCheckpoint s = .next { s with clk := { s.clk with checkpoint := now } })
    ∧ (∀ i dom tr t1 t4 t2 t3, i < 16 → let c := s.eth.ptp.toNat
      s.clk.alnSrc = 1 → c / 32 % 2 = 1 → c % 32 = i → c / 65536 % 256 = dom → c / 64 % 4 = tr → s.eth.link.getLsbD i = true →
      s.clk.rootLock = true → s.clk.alnState = 0 → ∃ t, exec (.ptpEventMessage i dom tr t1 t4 t2 t3) s = .next t ∧ acquires t)
    ∧ (∀ e, s.clk.alnSrc = 2 → s.clk.alnState = 0 → ∃ t, exec (.ppsEdge e) s = .next t ∧ acquires t)
    ∧ (s.clk.alnState = 2 → s.clk.alnLast + secs 3 ≤ now → ∃ t, exec .ptpHoldover s = .next t ∧ t.clk.alnState = 3
      ∧ t.clk.alnRate = s.clk.alnRate ∧ t.clk.alnW0 = s.clk.alnW0 ∧ t.clk.alnSeq = s.clk.alnSeq ∧ EventCounted 0x27 s t)
    ∧ (∀ e, s.clk.alnSrc = 2 → s.clk.alnState ≠ 0 →
      1000000 < (s.clk.aligned e - ((s.clk.alnT0s / 2 ^ 32 * 2 ^ 32 + s.clk.ppsTod % 2 ^ 32) * 1000000000 : Nat)).natAbs →
      ∃ t, exec (.ppsEdge e) s = .next t ∧ t.clk = s.clk ∧ EventCounted 0x27 s t)
    ∧ (s.clk.alnSrc = 2 → s.clk.alnState ≠ 0 → s.clk.alnLast + secs 1 ≤ now → ∃ t, exec .ppsEdgeMissing s = .next t ∧ t.clk = s.clk
      ∧ EventCounted 0x27 s t ∧ t.cores = s.cores)

/-! ### Power -/

/-- A feed out of range, or whose PRESENT pin opens, stops carrying load, the other going on; it returns in range; a removal request
opens its stage, and its clearing gives it back; a PRESENT pin that opens with the other feed out of range loses both; without either only what a power loss leaves stands
(R365, R374, R375, R436, R466, R475). -/
def Obligations.FeedsAndTheirLoss : Prop :=
  ∀ (b : Bool) (s : State), let f := s.pwr.feed b; let o := s.pwr.feed (!b)
    let off := fun (t : State) (v : Nat) => t.pwr.feed b = { f with on := false, ok := false, cur := 0, volt := v } ∧ t.pwr.feed (!b) = o
      ∧ EventCounted 0x20 s t ∧ t.cores = s.cores ∧ t.parts = s.parts
    (∀ v, v < 3800 → f.on = true → o.on = true → ∃ t, exec (.feedUndervoltage b v) s = .next t ∧ off t v)
    ∧ (∀ v, 6300 < v → f.on = true → o.on = true → ∃ t, exec (.feedOvervoltage b v) s = .next t ∧ off t v)
    ∧ (f.on = true → o.on = true → o.ok = true → ∃ t, exec (.feedPresentOpen b) s = .next t ∧ off t f.volt)
    ∧ (f.on = true → o.on = true → o.ok = false → ∃ t, exec (.feedPresentOpen b) s = .next t ∧ t.boot.start = 0 ∧ t.eth.bypass = true
      ∧ (t.pwr.feed b).on = false ∧ (t.pwr.feed (!b)).on = false)
    ∧ (∀ v, f.on = false → f.req = false → 3950 ≤ v → v ≤ 6100 → ∃ t, exec (.feedReturn b v) s = .next t ∧ (t.pwr.feed b).on = true
      ∧ (t.pwr.feed b).volt = v ∧ t.pwr.feed (!b) = o ∧ EventCounted 0x20 s t)
    ∧ (∀ m h, Delivered m 1 2 12 s h → f.req = false → f.on = true → o.on = true → o.ok = true →
      ∃ t, exec (.feedRemovalRequest m b) s = .next t ∧ (t.pwr.feed b).req = true ∧ (t.pwr.feed b).safe = true ∧ (t.pwr.feed b).on = false
        ∧ (t.pwr.feed (!b)).on = true ∧ (t.pwr.feed (!b)).req = o.req ∧ EventCounted 0x20 s t ∧ Answered t m 1 2 stOk (wroteOne 0x3000C))
    ∧ (∀ m h, Delivered m 1 2 12 s h → f.req = false → f.on = true → o.on = false ∨ o.ok = false →
      ∃ t, exec (.feedRemovalRequest m b) s = .next t ∧ t.pwr.feed b = f ∧ Answered t m 1 2 stOk (wroteOne 0x3000C))
    ∧ (∀ m h, Delivered m 1 2 12 s h → ∃ t, exec (.feedReqClear m b) s = .next t ∧ t.pwr.feed b = { f with req := false, safe := false }
        ∧ (t.pwr.feed (!b)).req = o.req ∧ (t.pwr.feed (!b)).on = o.on ∧ Answered t m 1 2 stOk (wroteOne 0x3000C))
    ∧ (∃ t, exec .bothFeedsLost s = .next t ∧ t.boot.start = 0 ∧ t.eth.bypass = true ∧ t.eth.sessions = []
      ∧ t.clk.wtime = s.clk.checkpoint + 2 ^ 40 ∧ FusesKept s t ∧ (∀ p, (t.part p).state = .empty)
      ∧ (∀ c, (t.core c).pad = [] ∧ (t.vault c).data = []) ∧ t.pending = s.pending)

/-- A region's power-on: refused while its zone lacks headroom, and failed after 500 ms of it; admitted, it ramps to its set point
with rclk at K = 8, then is checked, and ends in IDLE; a region stopped for heat goes to RETAIN (R384, R385, R386). -/
def Obligations.RegionPowerOnAndOff : Prop :=
  ∀ (r : Nat) (s : State), r < 64 → let g := s.region r; let now := s.clk.wtime
    (∀ o c regs bad, s.onOf r = some o → o.stage = 0 → o.last = 0 → s.gustBar r = some c →
      (s.pwr.ons.filter fun q => decide (skein q.region = skein r)).head? = some o → ∃ t, exec (.gustAdmit r regs bad) s = .next t
        ∧ (t.region r).pwr.cause = c ∧ (t.region r).pwr.tries = min 0xFFFF (g.pwr.tries + 1) ∧ (t.region r).pwr.state = g.pwr.state)
    ∧ (∀ o bad, s.onOf r = some o → o.stage = 0 → o.last = 0 → s.gustBar r = none → o.fromOff = true → g.part = none → g.clk.k = 0 →
      (s.pwr.ons.filter fun q => decide (skein q.region = skein r)).head? = some o → ∃ t, exec (.gustAdmit r [] bad) s = .next t
        ∧ (t.region r).pwr.state = 4 ∧ (t.region r).pwr.setpt = s.vset r ∧ (t.region r).clk.k = 8
        ∧ t.onOf r = some { o with stage := 1, last := now })
    ∧ (∀ o regs bad, s.onOf r = some o → o.stage = 1 → o.last + usecs 200 ≤ now → ∃ t, exec (.gustAdmit r regs bad) s = .next t
      ∧ t.onOf r = some { o with stage := 2, last := now } ∧ (∀ h, hostedBy r = some h → tget t.tree.hosts 0 h = 0)
      ∧ ∀ q ∈ zoneOf r, (t.region q).pwr.gust = ⟨0, 0, 0⟩)
    ∧ (∀ o regs bad, s.onOf r = some o → o.stage = 2 → o.last + usecs 2690 ≤ now → o.fromOff = false → g.part = none → s.boot.start = 2 →
      (∀ p, (s.allRegions p).contains r = false) → (∀ p, (s.part p).state = .empty) → ∃ t, exec (.gustAdmit r regs bad) s = .next t
        ∧ (t.region r).pwr.state = 2 ∧ t.onOf r = none ∧ (t.region r).clk.k = 0)
    ∧ (∀ o c, s.onOf r = some o → o.stage = 0 → c = 1 ∨ c = 2 → g.pwr.cause = c → 0 < g.pwr.tries → o.since + msecs 500 ≤ now →
      s.boot.start ≠ 1 → (∀ p, (s.part p).state ≠ .loading) → ∃ t, exec (.powerOnRefused r c) s = .next t ∧ t.onOf r = none
        ∧ (t.region r).pwr.cause = c ∧ (t.region r).pwr.state = g.pwr.state ∧ EventCounted 0x22 s t)
    ∧ (g.thm.hot = true → g.thm.off = false → pwrUp g.pwr.state = true → g.thm.stopping = true → g.part = none → hostedBy r = none →
      g.thm.coolN < 3 → ∃ t, exec (.regionSwitchOff r) s = .next t ∧ (t.region r).pwr.state = 1 ∧ (t.region r).thm.off = true
        ∧ (t.region r).thm.stopping = false ∧ (t.region r).clk.k = 0 ∧ EventCounted 0x29 s t)

/-- A regulator that disconnects leaves its group the others, and the last pair's loss a dark cluster of dead cores; measurements enter
their registers; the power-cap share rises above the cap and not below it; set points are trimmed; the path resistance is
averaged over 16 and flagged 25 % above its baseline; the VCORE record keeps the lowest (R377, R379, R380, R381, R387 to R390). -/
def Obligations.RegulatorsAndMeasurement : Prop :=
  ∀ (s : State),
    (∀ g u cause, g < 1024 → u < 4 → cause < 4 → (s.grp g).ok.getLsbD u = true → let ok := (s.grp g).ok &&& ~~~(BitVec.ofNat 4 (2 ^ u))
      (groupLimit ok ≠ 0 → ∃ t, exec (.regulatorDisconnect g u cause) s = .next t ∧ t.grp g = { s.grp g with ok := ok, limit := groupLimit ok }
        ∧ (∀ k, k ≠ g → t.grp k = s.grp k) ∧ EventCounted 0x21 s t ∧ t.cores = s.cores)
      ∧ (groupLimit ok = 0 → (s.grp g).dark = false → (s.region (g / 16)).part = none → (s.region (g / 16)).pwr.state ≠ 4 →
        ∃ t, exec (.regulatorDisconnect g u cause) s = .next t ∧ (t.grp g).dark = true ∧ (t.cluster g).dark = true ∧ EventCounted 0x21 s t
          ∧ (∀ i, i < 72 → (t.core (72 * g + i)).dead = true) ∧ (∀ c, c / 72 ≠ g → t.core c = s.core c)))
    ∧ (∀ x : PowerMeas, ∃ t, exec (.powerMeasure x) s = .next t ∧ t.pwr.energy = s.pwr.energy + x.pin ∧ t.pwr.peak = max s.pwr.peak x.pin
      ∧ (t.pwr.window.head?).map (·.pin) = some x.pin ∧ t.pwr.window.length ≤ 100 ∧ t.pwr.feedA.volt = x.voltA ∧ t.pwr.feedB.volt = x.voltB
      ∧ (∀ r, r < 64 → (t.region r).pwr.watts = x.watts.getD r 0) ∧ t.cores = s.cores ∧ t.vaults = s.vaults)
    ∧ (∀ p, p < 16 → (s.part p).loaded = true → ∃ t, exec (.powerCapAdjust p) s = .next t ∧ (∀ q, q ≠ p → t.part q = s.part q)
      ∧ ((s.part p).powW > 100 * (s.part p).powCap → (s.part p).lullShare < 255 → (s.part p).lullShare < (t.part p).lullShare)
      ∧ ((s.part p).powW ≤ 100 * (s.part p).powCap → (t.part p).lullShare ≤ (s.part p).lullShare))
    ∧ (∀ r, r < 64 → pwrUp (s.region r).pwr.state = true → let n := (s.region r).clk.stretchNow - (s.region r).pwr.trimBase
      ∃ t, exec (.vcoreTrim r) s = .next t ∧ (64 < n → (t.region r).pwr.setpt = min 850 ((s.region r).pwr.setpt + 5))
        ∧ (0 < n → n ≤ 64 → (t.region r).pwr.setpt = (s.region r).pwr.setpt)
        ∧ (n = 0 → 9 ≤ (s.region r).pwr.quiet → (t.region r).pwr.setpt =
            min (s.region r).pwr.setpt (max ((s.region r).pwr.setpt - 5) (max 600 (s.vset r - 30))))
        ∧ t = { s with regions := t.regions } ∧ ∀ q, q ≠ r → t.region q = s.region q)
    ∧ (∀ g cur uohm, g < 1024 → 800 < cur → ∃ t x, exec (.pathResistanceMeasure g cur uohm) s = .next t
      ∧ (t.grp g).meas = (x :: (s.grp g).meas).take 16
      ∧ (15 ≤ (s.grp g).meas.length → (t.grp g).now = min 0xFFFF (meanOf (t.grp g).meas)
        ∧ (4 * (t.grp g).now > 5 * s.pathBase g → (s.grp g).flagged = false → (t.grp g).crack = true ∧ EventCounted 0x25 s t)))
    ∧ (∀ r mv, r < 64 → (s.region r).pwr.state ≠ 0 → ∃ t i, exec (.vcoreDigitise r mv) s = .next t ∧ i < 16
      ∧ (t.region r).pwr.vcore = min 1023 (mv.getD i 1023) ∧ (t.region r).pwr.vcoreCl = i
      ∧ (∀ j, j < 16 → (t.region r).pwr.vcore ≤ min 1023 (mv.getD j 1023))
      ∧ (t.region r).pwr.vmin = min (s.region r).pwr.vmin (t.region r).pwr.vcore)
    ∧ (∀ m h r, r < 64 → s.snapped r = false → Delivered m 1 2 12 s h → ∃ t, exec (.vminClear m r) s = .next t
      ∧ (t.region r).pwr.vmin = (s.region r).pwr.vcore ∧ (t.region r).pwr.vminCl = (s.region r).pwr.vcoreCl
      ∧ (t.region r).pwr.vminAt = s.clk.wtime ∧ Answered t m 1 2 stOk (wroteOne (0x100C04 + 0x10000 * r)))
    ∧ (∀ m h p, p < 16 → (s.part p).alt ≠ 0 → (s.part p).phase ≠ .none → Delivered m 1 2 12 s h → ∃ t, exec (.standbyReturn m p) s = .next t
      ∧ t.part p = { s.part p with returnReq := true } ∧ (∀ q, q ≠ p → t.part q = s.part q)
      ∧ Answered t m 1 2 stOk (wroteOne (0x31004 + 16 * p)))

/-! ### Temperature and the vault controllers -/

/-- Sweeps start by PERIOD, at most 1 ms apart while a junction is warm, and take their readings 400 µs later; 118 °C in a region being
stopped cuts it off; cooling conditions set after 10 s and clear after 60 s; thermal life goes to the spool
(R395, R396, R399, R400, R402, R403, R404). -/
def Obligations.SweepsAndCooling : Prop :=
  ∀ (s : State), let now := s.clk.wtime
    let warm := ∃ r, r < 64 ∧ (1520 ≤ (s.region r).thm.logic ∨ 1360 ≤ (s.region r).thm.dram)
    (s.edgeUp = true → s.thm.sweeping = false → s.thm.nextSweep ≤ now → ∃ t n, exec .sweepStart s = .next t
      ∧ t = { s with thm := { s.thm with sweeping := true, sweepAt := now, nextSweep := now + usecs (100 * n) } }
      ∧ (warm → n = min s.thm.period 10) ∧ (¬warm → n = s.thm.period))
    ∧ (∀ x : Sweep, s.thm.sweeping = true → s.thm.sweepAt + usecs 400 ≤ now → ∃ t, exec (.sweepEnd x) s = .next t
      ∧ t.thm.sweeping = false ∧ t.thm.sweeps = s.thm.sweeps + 1
      ∧ ∀ v, -640 ≤ v → v ≤ 1440 → (∀ r, r < 64 → x.logic.getD r none = some v ∧ (s.region r).thm.lBroken = false) →
          ∀ r, r < 64 → (t.region r).thm.logic = v ∧ (t.region r).thm.lBroken = false)
    ∧ (∀ r v, r < 64 → (s.region r).thm.stopping = true → (s.region r).thm.lBroken = false → 1888 ≤ v → v ≤ 2400 → (s.region r).pwr.state ≠ 0 → (s.region r).part = none →
      hostedBy r = none → s.onOf r = none → ∃ t, exec (.stopConversion r (some v)) s = .next t ∧ (t.region r).pwr.state = 0
        ∧ (t.region r).thm.off = true ∧ (t.region r).clk.k = 0 ∧ EventCounted 0x2A s t)
    ∧ (∀ i, i < 5 → s.thm.cool.getLsbD i = false → tget s.thm.coolSet 0 i ≠ 0 → tget s.thm.coolSet 0 i + secs 10 ≤ now + 1 →
      ∃ t, exec (.coolingConditionSet i) s = .next t ∧ (∀ j, j < 5 → t.thm.cool.getLsbD j = (decide (j = i) || s.thm.cool.getLsbD j))
        ∧ EventCounted 0x2D s t ∧ t.cores = s.cores ∧ t.parts = s.parts)
    ∧ (∀ i, i < 5 → s.thm.cool.getLsbD i = true → tget s.thm.coolClr 0 i ≠ 0 → tget s.thm.coolClr 0 i + secs 60 ≤ now + 1 →
      ∃ t, exec (.coolingConditionClear i) s = .next t ∧ (∀ j, j < 5 → t.thm.cool.getLsbD j = (decide (j ≠ i) && s.thm.cool.getLsbD j))
        ∧ EventCounted 0x2D s t ∧ t.cores = s.cores ∧ t.parts = s.parts)
    ∧ (∃ t, exec .thermalLifePersist s = .next t ∧ (s.persistOk = true → ∀ r, r < 64 →
        tget t.thm.saved ([0, 0, 0, 0], 0) r = ((s.region r).thm.cyc, (s.region r).thm.life)) ∧ t.regions = s.regions ∧ t.cores = s.cores)

/-- Refresh moves to the next row and changes no contents; a scrub read of a sound burst moves on, and no sooner
than the PERIOD spaces it; a second port that does not answer makes its vault lost and its core dead (R127, R132, R134). -/
def Obligations.VaultControllers : Prop :=
  ∀ (c : Nat) (s : State), c < 73728 → s.vaultsOn = true → let v := s.vault c; let period := (s.cluster (c / 72)).scrub.toNat % 256
    (∃ t, exec (.vaultRefresh c) s = .next t ∧ t.vault c = { v with refreshRow := (v.refreshRow + 1) % 512 }
      ∧ (∀ d, d ≠ c → t.vault d = s.vault d) ∧ t = { s with vaults := t.vaults })
    ∧ (period ≠ 0 → v.scrubDue ≤ s.clk.wtime → v.wb = [] → v.decode v.scrubAt = .clean → v.lost = false → v.failing = false →
      ∃ t, exec (.vaultScrubRead c []) s = .next t ∧ t.vault c = { v with
          scrubAt := (v.scrubAt + 1) % 524288, scrubDue := s.clk.wtime + scrubTicks period, passes := v.passes + (if v.scrubAt + 1 = 524288 then 1 else 0) }
        ∧ (∀ d, d ≠ c → t.vault d = s.vault d) ∧ t.cores = s.cores ∧ t.evt = s.evt)
    ∧ (period ≠ 0 → s.clk.wtime < v.scrubDue → exec (.vaultScrubRead c []) s = .next s)
    ∧ (∀ i rest errs, period ≠ 0 → v.scrubDue ≤ s.clk.wtime → v.wb = i :: rest → i ∉ rest → v.decode i = .corrected errs →
      v.decode v.scrubAt = .clean → v.scrubAt ≠ i → v.lost = false → v.failing = false → i < 524288 → v.scrubAt < 524288 →
      ∃ t, exec (.vaultScrubRead c []) s = .next t ∧ (t.vault c).burst i = applyErrs (v.burst i) errs ∧ i ∉ (t.vault c).wb
        ∧ (∀ d, d ≠ c → t.vault d = s.vault d))
    ∧ (∃ t, exec (.secondPortTimeout c) s = .next t ∧ (t.vault c).lost = true ∧ (t.core c).dead = true)

/-! ### Events and spool cards -/

/-- A waiting record enters the ring with EVT_HEAD as its SEQ; records are persisted in SEQ order; EVT_ACK moves forward alone; the
exponent table's reset waits for the next launch (R74, R425, R427). -/
def Obligations.EventRingAndAcknowledgement : Prop :=
  ∀ (s : State),
    (∀ q r rest, s.persistOk = true → s.evt.squalls = [] → s.evt.room = true → (q = 64 → s.evt.edge = r :: rest) →
      (q < 64 → tget s.evt.queues [] q = r :: rest) → q ≤ 64 → ∃ t, exec (.eventRecordEntry q) s = .next t
        ∧ t.evt.ring.getLast? = some { r with seq := s.evt.head } ∧ t.evt.head = (s.evt.head + 1) % 2 ^ 32
        ∧ (q = 64 → t.evt.edge = rest) ∧ (q < 64 → tget t.evt.queues [] q = rest) ∧ t.evt.counts = s.evt.counts ∧ t.cores = s.cores)
    ∧ (let due := (s.evt.ring.filter fun r => !serialLt r.seq s.evt.persist && !r.acked).take 64
       ∀ l, s.persistOk = true → due.getLast? = some l → s.evt.saved.length + due.length ≤ 2 ^ 30 → (∀ r ∈ s.evt.ring, r.acked = false) →
         (s.evt.batchAt = 0 ∨ s.evt.batchAt + secs 1 / max 1 s.evt.rate ≤ s.clk.wtime + 1) →
         (64 ≤ due.length ∨ ∃ r, due.head? = some r ∧ r.wtime + secs 1 ≤ s.clk.wtime) →
      ∃ t, exec .eventPersistBatch s = .next t ∧ t.evt.saved = s.evt.saved ++ due ∧ t.evt.persist = (l.seq + 1) % 2 ^ 32
        ∧ t.evt.ring = s.evt.ring)
    ∧ (∀ m h (v : Word), s.persistOk = true → Delivered m 1 2 12 s h → ∃ t, exec (.evtAck m v) s = .next t
      ∧ t.evt.ack = (if serialLt v.toNat s.evt.ack ∨ serialLt s.evt.head v.toNat then s.evt.ack else v.toNat)
      ∧ t.evt.ring = s.evt.ring ∧ Answered t m 1 2 stOk (wroteOne 0x70010))
    ∧ (∀ m h p decay, p < 16 → Delivered m 1 2 12 s h → ∃ t, exec (.erefReset m p decay) s = .next t
      ∧ t.part p = { s.part p with decayEn := decay, erefPend := true } ∧ (∀ q, q ≠ p → t.part q = s.part q)
      ∧ Answered t m 1 2 stOk (wroteOne (0x8400C + 0x20 * p)))

/-- Cards: removal is requested, made SAFE and cleared; an inserted card is formatted, waits as FOREIGN, or fails; a rebuild completes;
a lost card is absent; a format starts at half of DEPTH (R346, R347, R348, R349, R352). -/
def Obligations.SpoolCardService : Prop :=
  ∀ (c : Nat) (s : State), c ≤ 1 → let k := s.card c
    (∀ m h, Delivered m 1 2 12 s h → k.req = false → k.state ≠ 0 → (s.card (1 - c)).state ≠ 3 →
      ∃ t, exec (.spoolCardRemovalRequest m c) s = .next t ∧ (t.card c).req = true ∧ (t.card c).state = k.state
        ∧ (t.card (1 - c)).req = (s.card (1 - c)).req ∧ (t.card (1 - c)).state = (s.card (1 - c)).state
        ∧ (∀ i, (s.req i).used = true → (t.req i).spooling ≠ some c) ∧ Answered t m 1 2 stOk (wroteOne (cardCtl c)))
    ∧ (∀ m h, Delivered m 1 2 12 s h → k.req = false → k.state ≠ 0 → (s.card (1 - c)).state = 3 →
      ∃ t, exec (.spoolCardRemovalRequest m c) s = .next t ∧ t.card c = { k with busy := true } ∧ Answered t m 1 2 stOk (wroteOne (cardCtl c)))
    ∧ (k.req = true → k.state ≠ 7 → k.state ≠ 0 → ∃ t, exec (.spoolCardSafe c) s = .next t ∧ (t.card c).state = 7 ∧ (t.card c).req = true
      ∧ EventCounted 0x35 s t ∧ ∀ o ∈ t.spl.objs, o.cards.testBit c = false)
    ∧ (∀ m h, Delivered m 1 2 12 s h → k.req = true → k.state = 7 → ∃ t, exec (.spoolCardReqClear m c) s = .next t
      ∧ t.card c = { k with req := false, state := 1 } ∧ t.card (1 - c) = s.card (1 - c) ∧ Answered t m 1 2 stOk (wroteOne (cardCtl c)))
    ∧ (∀ f kind width rate spare pe service a sent, k.present = false → 16 ≤ width → 64 ≤ rate →
      ∃ t, exec (.spoolCardInserted c f kind width rate spare pe service a sent) s = .next t ∧ (t.card c).present = true
        ∧ (t.card c).version = f.version ∧ (t.card c).aX100 = (if sent < 1000000000000 then 210 else a)
        ∧ (s.deviceOk 4 f = false → (t.card c).state = 6)
        ∧ (s.deviceOk 4 f = true → kind = 1 → (t.card c).state = 5 ∧ EventCounted 0x35 s t)
        ∧ (s.deviceOk 4 f = true → kind = 0 → (t.card c).state = 3 ∧ (t.card c).level = (t.card c).depth / 2)
        ∧ (s.deviceOk 4 f = true → 2 ≤ kind → (t.card c).state = 3 ∧ (t.card c).held = []))
    ∧ (k.state = 3 → ∃ t, exec (.spoolRebuildComplete c) s = .next t ∧ (t.card c).state = 2 ∧ (t.card (1 - c)).busy = false
      ∧ EventCounted 0x36 s t ∧ ∀ o ∈ s.toCopy c, ∃ x ∈ t.spl.objs, x.id = o.id ∧ x.cards.testBit c = true)
    ∧ (k.present = true → ∃ t, exec (.spoolCardLost c) s = .next t ∧ (t.card c).present = false ∧ (t.card c).state = 0
      ∧ (t.card c).req = false ∧ EventCounted 0x35 s t)
    ∧ (∀ m h, Delivered m 1 2 12 s h → k.req = false → k.state = 5 ∨ k.state = 2 → ∃ t, exec (.format m c) s = .next t
      ∧ (t.card c).state = 3 ∧ (t.card c).level = (t.card c).depth / 2 ∧ (t.card c).held = [] ∧ Answered t m 1 2 stOk (wroteOne (cardCtl c)))

/-- Scrubbing counts blocks and raises the class of the tier it needed; the governor's rate follows R345 and its level rises every second
to at most DEPTH; shredding raises the tenant's key generation and ends its PAUSED and SPOOLED requests
(R340, R341, R344, R345, R346). -/
def Obligations.SpoolScrubGovernorShred : Prop :=
  ∀ (s : State),
    (∀ c pkg block tier obj bytes spare, c ≤ 1 → let k := s.card c
      (k.state = 2 ∨ k.state = 3 ∨ k.state = 4) → k.retired.contains block = false → tget k.tier4 0 block = 0 →
      ∃ t, exec (.spoolScrub c pkg block tier obj bytes spare false false) s = .next t ∧ (t.card c).scrubbed = k.scrubbed + 1
        ∧ (tier ≤ 1 → t.evt = s.evt ∧ (t.card c).retired = k.retired ∧ t.spl.objs = s.spl.objs)
        ∧ (tier = 2 ∨ tier = 3 → EventCounted 0x30 s t ∧ (t.card c).ceCnt = satInc k.ceCnt ∧ (t.card c).retired = k.retired)
        ∧ (tier = 4 → EventCounted 0x31 s t ∧ (t.card c).ceCnt = satInc k.ceCnt ∧ (t.card c).retired = k.retired)
        ∧ (5 ≤ tier → EventCounted 0x32 s t ∧ EventCounted 0x33 s t ∧ (t.card c).ueCnt = satInc k.ueCnt
          ∧ (t.card c).retired = k.retired ++ [block]))
    ∧ (∀ c a pe, c ≤ 1 → (s.card c).present = true → ∃ t, exec (.governorRecompute c a pe) s = .next t ∧ (t.card c).aX100 = ampOf a (s.card c).sent
      ∧ (t.card c).peMean = pe ∧ (t.card c).rate0 = s.spl.rate0 ∧ (t.card c).rate ≤ s.spl.rate0
      ∧ ((s.card c).service < s.spl.life → (t.card c).rate = min (budget s.spl.life pe (ampOf a (s.card c).sent) (s.card c).service) s.spl.rate0)
      ∧ (t.card c).level = (s.card c).level)
    ∧ (∀ c, c ≤ 1 → (s.card c).present = true → ∃ t, exec (.governorRefill c) s = .next t ∧ (t.card c).service = (s.card c).service + 1
      ∧ ((s.card c).level < (s.card c).depth →
          (t.card c).level = min (s.card c).depth ((s.card c).level + (((s.card c).rate * megabyte : Nat) : Int)))
      ∧ ((s.card c).depth ≤ (s.card c).level → (t.card c).level = (s.card c).level) ∧ t.spl.objs = s.spl.objs)
    ∧ (∀ m h, Delivered m 1 2 12 s h → let n := h.selAt 0x60040 0
      ∃ t, exec (.shred m) s = .next t ∧ t.keyGen n = (s.keyGen n + 1) % 2 ^ 31
        ∧ (∀ i, (s.req i).used = true → (s.req i).par.tenant = n → (s.req i).state = .paused ∨ (s.req i).state = .spooled →
            (t.req i).state = .done)
        ∧ (∀ o ∈ t.spl.objs, o.kind = .history ∨ o.kind = .kv → o.tenant = n → o.gen = (s.keyGen n + 1) % 2 ^ 31)
        ∧ Answered t m 1 2 stOk (wroteOne 0x60044))

/-! ### Boot, start, stewards -/

/-- The stewards boot when the auxiliary rail comes up or at a service reset, and order a start, or Doldrums mode after three failures; a
start completes in RUNNING, and fails where it meets a cause of R439 or takes 2 s; a failed one is retried after 1 s; FAILS clears after 60 s; RETRY leaves Doldrums mode
(R331, R365, R437 to R442, R469). -/
def Obligations.BootAndStart : Prop :=
  ∀ (s : State), let second := fun (p1 : Nat) => if p1 = 0 then 0 else if p1 = 1 then 2 else 3
    let meets := fun (cause : Nat) => cause = 2 ∨ cause = 3 ∨ cause = 4 ∨ cause = 7 ∨ cause = 8
    let fails := fun (t : State) (cause n : Nat) => t.boot.lastCause = cause ∧ t.boot.fails = min 3 (n + 1) ∧ t.boot.start = (if n ≥ 2 then 4 else 3)
    let boots := fun (t : State) (p1 cause : Nat) => t.boot.stw.st0 = 1 ∧ t.boot.stw.st1 = second p1 ∧ t.boot.stw.active = 0 ∧ t.boot.recover = false
      ∧ (s.boot.fails ≠ 3 → s.startable → ¬meets cause → t.boot.start = 1 ∧ t.clk.rootLock = true)
      ∧ (s.boot.fails ≠ 3 → s.startable → meets cause → fails t cause s.boot.fails) ∧ (s.boot.fails = 3 → t.boot.start = 4)
    (∀ p1 cause, p1 ≤ 2 → s.boot.start = 0 → s.boot.stw.st0 ≠ 1 → s.boot.stw.st1 ≠ 1 →
      ∃ t, exec (.auxRailUp 1 p1 false false cause) s = .next t ∧ boots t p1 cause)
    ∧ (∀ p0 p1 alt rec cause, p0 ≤ 2 → p1 ≤ 2 → (p0 ≠ 1 ∧ p1 ≠ 1) ∨ rec = true → s.boot.start = 0 → s.boot.stw.st0 ≠ 1 → s.boot.stw.st1 ≠ 1 →
      ∃ t, exec (.auxRailUp p0 p1 alt rec cause) s = .next t ∧ t.boot.recover = true ∧ t.boot.stw.none = true ∧ t.boot.start = 0)
    ∧ (∀ p1 cause, p1 ≤ 2 → ∃ t, exec (.serviceReset 1 p1 false false cause) s = .next t ∧ boots t p1 cause ∧ t.clk.wtime = s.clk.checkpoint + 2 ^ 40
      ∧ FusesKept s t ∧ (∀ c, (t.core c).pad = []) ∧ t.eth.sessions = [])
    ∧ (s.boot.start = 1 → s.clk.wtime < s.boot.startAt + secs 2 → s.boot.order = [] → s.pwr.ons = [] → s.boot.autoload = false → ∃ t, exec .startComplete s = .next t
      ∧ t.boot.start = 2 ∧ t.boot.runAt = s.clk.wtime ∧ EventCounted 0x3B s t ∧ t.srv.parked = [] ∧ t.parts = s.parts
      ∧ ∀ i, (s.req i).used = true → t.req i = s.req i)
    ∧ (s.boot.start = 1 → s.boot.startAt + secs 2 ≤ s.clk.wtime → ∃ t, exec .startComplete s = .next t ∧ fails t 10 s.boot.fails)
    ∧ (∀ cause, s.boot.start = 3 → s.boot.startAt + secs 1 ≤ s.clk.wtime → s.startable → ∃ t, exec (.startRetry cause) s = .next t
      ∧ (¬meets cause → t.boot.start = 1 ∧ t.boot.startAt = s.clk.wtime ∧ t.clk.rootLock = true ∧ t.boot.calUse = s.boot.cal)
      ∧ (meets cause → fails t cause s.boot.fails))
    ∧ (s.boot.start = 2 → s.boot.runAt + secs 60 ≤ s.clk.wtime → exec .failsReset s = .next { s with boot := { s.boot with fails := 0 } })
    ∧ (∀ m h auto cause, s.boot.start = 4 → s.startable → ¬meets cause → Delivered m 1 2 12 s h → ∃ t, exec (.doldrumsRetry m auto cause) s = .next t ∧ t.boot.start = 1
      ∧ t.boot.fails = 0 ∧ t.boot.autoload = auto ∧ EventCounted 0x3B s t ∧ Answered t m 1 2 stOk (wroteOne 0x10))
    ∧ (∀ x, exec (.svcPresentChange x) s = .next { s with boot := { s.boot with svcPresent := x, svcPower := x } })
    ∧ (∀ head body, s.boot.recover = true → let k := leAt head 6 1
      1 ≤ k → k ≤ 6 → leAt head 0 4 = 0x4D495746 → ∃ t, exec (.bootFlashRecovery head body true) s = .next t
        ∧ (t.comp k).active = (s.comp k).active ∧ (t.comp k).other.version = leAt head 8 4
        ∧ (t.comp k).other.valid = decide (dig body = leAt head 0x30 64) ∧ ∀ j, j ≠ k → t.comp j = s.comp j)

/-- The standby steward is removed, swapped in, and replaced by one whose firmware is compatible; firmware is activated, reverted before
it is confirmed, restarted part by part, and confirmed after 10 minutes, by an owner session alone
(R314, R431, R443, R446, R447). -/
def Obligations.StewardsAndFirmware : Prop :=
  ∀ (m : Msg) (h : Session) (s : State)
    , (Delivered m 1 2 12 s h → s.boot.stw.active = 0 → s.boot.stw.st1 = 2 → s.boot.stw.req = false →
      ∃ t, exec (.stewardRemovalRequest m) s = .next t ∧ t.boot.stw = { s.boot.stw with req := true, safe := true, st1 := 0 }
        ∧ Answered t m 1 2 stOk (wroteOne 0x100))
    ∧ (Delivered m 1 2 12 s h → s.boot.stw.st0 = 1 → s.boot.stw.st1 = 2 → ∃ t, exec (.stewardSwap m) s = .next t
      ∧ t.boot.stw.st0 = 2 ∧ t.boot.stw.st1 = 1 ∧ t.boot.stw.active = 1 - s.boot.stw.active ∧ Answered t m 1 2 stOk (wroteOne 0x100))
    ∧ (∀ f, s.boot.stw.none = false → s.boot.stw.active = 0 → s.boot.stw.st1 = 0 ∨ s.boot.stw.st1 = 3 →
      ∃ t, exec (.stewardInserted f) s = .next t ∧ t.boot.stw.st1 = (if s.deviceOk 1 f then 2 else 3) ∧ t.boot.stw.ver1 = f.version
        ∧ t.boot.stw.req = false ∧ t.boot.stw.st0 = s.boot.stw.st0 ∧ t = { s with boot := t.boot })
    ∧ (∀ ra, let k := h.selAt 0x10010 1
      Delivered m 1 2 12 s h → h.role = 2 → k = 1 ∨ k = 4 ∨ k = 5 ∨ k = 6 → (s.comp k).state = 2 → ∃ t, exec (.fwActivate m ra) s = .next t
        ∧ (t.comp k).active = (s.comp k).other ∧ (t.comp k).other = (s.comp k).active ∧ (t.comp k).state = 3 ∧ t.boot.relayAct = ra
        ∧ (∀ j, j ≠ k → t.comp j = s.comp j) ∧ Answered t m 1 2 stOk (wroteOne 0x1001C))
    ∧ (∀ ra, Delivered m 1 2 12 s h → h.role ≠ 2 → (∃ t, exec (.fwActivate m ra) s = .next t ∧ t.boot = s.boot
        ∧ Answered t m 1 2 stIncompat (beBytes 4 0x1001C ++ beBytes 2 0 ++ beBytes 2 0))
      ∧ (∃ t, exec (.fwRevert m ra) s = .next t ∧ t.boot = s.boot
        ∧ Answered t m 1 2 stIncompat (beBytes 4 0x1001C ++ beBytes 2 0 ++ beBytes 2 0)))
    ∧ (∀ ra, let k := h.selAt 0x10010 1
      Delivered m 1 2 12 s h → h.role = 2 → k = 1 ∨ k = 4 ∨ k = 5 ∨ k = 6 → (s.comp k).state = 5 → (s.comp k).other.valid = true →
      (s.comp k).back = false → ∃ t, exec (.fwRevert m ra) s = .next t ∧ (t.comp k).active = (s.comp k).other ∧ (t.comp k).state = 3
        ∧ (t.comp k).back = true ∧ EventCounted 0x39 s t ∧ Answered t m 1 2 stOk (wroteOne 0x1001C))
    ∧ (∀ k, 1 ≤ k → k ≤ 6 → (s.comp k).state = 5 → (s.comp k).since + secs 600 ≤ s.clk.wtime → ∃ t, exec (.fwConfirm k) s = .next t
      ∧ t.comp k = { s.comp k with other := (s.comp k).active, same := true, state := 0 } ∧ (∀ j, j ≠ k → t.comp j = s.comp j)
      ∧ EventCounted 0x39 s t)
    ∧ ((s.comp 6).state = 3 → (s.comp 6).stage = 2 → (s.comp 6).back = false → ∃ t, exec (.componentRestartDone 6) s = .next t
      ∧ (t.comp 6).state = 5 ∧ (t.comp 6).since = s.clk.wtime ∧ EventCounted 0x39 s t)
    ∧ ((s.comp 5).state = 3 → (s.comp 5).stage = 0 → s.eth.bypass = true → ∃ t, exec (.componentRestartDone 5) s = .next t
      ∧ (t.comp 5).state = 3 ∧ (t.comp 5).stage = 1 ∧ ∀ i, i < 8 → t.eth.link.getLsbD (8 + i) = false)

/-! ### Fuses, principals, calibration -/

/-- Fuse operations of an owner session with CONFIRM 0xF05E blow their fuse, and with another value nothing; principals are applied while a
valid owner entry remains, and bootstrapped while there is none; the calibration record is opened, committed if it checks, and
abandoned (R448 to R451, R455, R456). -/
def Obligations.FusesPrincipalsCalibration : Prop :=
  ∀ (m : Msg) (h : Session) (s : State)
    , (Delivered m 1 2 12 s h → h.role = 2 → s.boot.fuseBusy ≤ s.clk.wtime →
      let blown := fun (t : State) => t.boot.fuseBusy = s.clk.wtime + msecs 10 ∧ FusesKept s t ∧ EventCounted 0x3A s t
        ∧ Answered t m 1 2 stOk (wroteOne 0x10004)
      (s.boot.owner = none → ∃ t, exec (.fuseOwnerDigest m 0xF05E) s = .next t ∧ t.boot.owner = some h.digest ∧ blown t)
      ∧ (∃ t, exec (.fuseDebugLock m 0xF05E) s = .next t ∧ t.boot.debugLock = true ∧ blown t)
      ∧ (∃ t, exec (.fuseIsolation m 0xF05E) s = .next t ∧ t.boot.isolate = true ∧ blown t)
      ∧ (∀ c, c < 4 → s.boot.rb.length = 4 → s.counterReady c = true → ∃ t, exec (.fuseCounterAdvance m 0xF05E c) s = .next t
        ∧ t.rb c = max (s.rb c) (min 64 (s.lowestSvn c)) ∧ (∀ d, d ≠ c → t.rb d = s.rb d) ∧ blown t))
    ∧ (∀ x, x < 65536 → x ≠ 0xF05E → Delivered m 1 2 12 s h → h.role = 2 → ∃ t, exec (.fuseDebugLock m x) s = .next t ∧ t.boot = s.boot
      ∧ t.evt = s.evt ∧ Answered t m 1 2 stOk (wroteOne 0x10004))
    ∧ (∀ v : Word, let i := h.selAt 0x10040 0; let old := s.prAt i
      let e : Principal := { valid := v.getLsbD 0, role := v.toNat / 2 % 4, tenant := v.toNat / 16 % 4096
                             mask := BitVec.ofNat 16 (h.selAt 0x10048 old.mask.toNat), digest := h.stagedDigest old }
      Delivered m 1 2 12 s h → h.role = 2 → hasOwner s.boot.principals = true → e.role ≠ 3 → s.ownerFits e = true → hasOwner (tset s.boot.principals Principal.reset i e) = true →
      ∃ t, exec (.principalApply m v) s = .next t ∧ t.prAt i = e ∧ (∀ j, j ≠ i → t.prAt j = s.prAt j)
        ∧ (e ≠ old → EventCounted 0x3A s t))
    ∧ (∀ i mask d, i < 1024 → hasOwner s.boot.principals = false →
      s.boot.owner = none ∨ s.boot.owner = some (d % 2 ^ 512) → ∃ t, exec (.principalBootstrap i mask d) s = .next t
        ∧ t.prAt i = { valid := true, role := 2, tenant := 0, mask := mask, digest := d % 2 ^ 512 } ∧ EventCounted 0x3A s t)
    ∧ (Delivered m 1 2 12 s h → h.role = 2 → s.boot.calOpen = false → ∃ t, exec (.calOpen m) s = .next t ∧ t.boot.calOpen = true
      ∧ t.boot.calStage = s.boot.cal ∧ t.boot.cal = s.boot.cal ∧ Answered t m 1 2 stOk (wroteOne 0x10030))
    ∧ (Delivered m 1 2 12 s h → h.role = 2 → s.boot.calOpen = true → calCheck s.boot.calStage = stOk → ∃ t, exec (.calCommit m) s = .next t
      ∧ t.boot.calOpen = false ∧ calAt t.boot.cal 8 4 = (calAt s.boot.cal 8 4 + 1) % 2 ^ 32
      ∧ calAt t.boot.cal 0x10 8 = s.clk.wtime % 2 ^ 64 ∧ t.boot.calUse = s.boot.calUse ∧ EventCounted 0x3A s t
      ∧ Answered t m 1 2 stOk (wroteOne 0x10030))
    ∧ (Delivered m 1 2 12 s h → h.role = 2 → s.boot.calOpen = true → calCheck s.boot.calStage ≠ stOk → ∃ t, exec (.calCommit m) s = .next t
      ∧ t.boot = { s.boot with calStatus := calCheck s.boot.calStage } ∧ Answered t m 1 2 stOk (wroteOne 0x10030))
    ∧ (Delivered m 1 2 12 s h → h.role = 2 → ∃ t, exec (.calAbandon m) s = .next t ∧ t.boot = { s.boot with calOpen := false, calStage := [] }
      ∧ Answered t m 1 2 stOk (wroteOne 0x10030))
    ∧ (s.boot.calOpen = true → s.boot.calLast + secs 600 ≤ s.clk.wtime → exec .calStagingTimeout s =
        .next { s with boot := { s.boot with calOpen := false, calStage := [] } })
end

