-- ==== Sys2Proof/Laws/Table.lean ====
section
/-!
SUPPORT. Sparse storage: what is read after a write, and that every write keeps the canonical form.
-/
namespace Sys2Proof.Machine

variable {α : Type} [DecidableEq α]

omit [DecidableEq α] in
theorem tget_filter_ne (t : Table α) (d : α) {k j : Nat} (h : j ≠ k) :
    tget (t.filter fun e => decide (e.1 ≠ k)) d j = tget t d j := by
  induction t with
  | nil => rfl
  | cons e t ih =>
    obtain ⟨i, v⟩ := e
    by_cases hi : i = k
    · subst hi
      simp [tget, Ne.symm h]
      simpa using ih
    · simp [tget, hi]
      simp at ih
      rw [ih]

omit [DecidableEq α] in
theorem tget_filter_self (t : Table α) (d : α) (k : Nat) :
    tget (t.filter fun e => decide (e.1 ≠ k)) d k = d := by
  induction t with
  | nil => rfl
  | cons e t ih =>
    obtain ⟨i, v⟩ := e
    by_cases hi : i = k
    · simp [hi]
      simpa using ih
    · simp [tget, hi]
      simpa using ih

omit [DecidableEq α] in
theorem tget_tins_ne (t : Table α) (d x : α) {k j : Nat} (h : j ≠ k) : tget (tins t k x) d j = tget t d j := by
  induction t with
  | nil => simp [tins, tget, Ne.symm h]
  | cons e t ih =>
    obtain ⟨i, v⟩ := e
    unfold tins
    split
    · simp [tget, Ne.symm h]
    · simp [tget, ih]

omit [DecidableEq α] in
theorem tget_tins_self (t : Table α) (d x : α) (k : Nat) (h : ∀ e ∈ t, e.1 ≠ k) : tget (tins t k x) d k = x := by
  induction t with
  | nil => simp [tins, tget]
  | cons e t ih =>
    obtain ⟨i, v⟩ := e
    unfold tins
    split
    · simp [tget]
    · have hi : i ≠ k := h (i, v) (by simp)
      simp [tget, hi]
      exact ih fun e he => h e (by simp [he])

/-- What is written is read back. -/
@[simp] theorem tget_tset_self (t : Table α) (d : α) (k : Nat) (x : α) : tget (tset t d k x) d k = x := by
  unfold tset
  by_cases hx : x = d
  · simp only [hx, if_true]
    exact tget_filter_self t d k
  · simp only [hx, if_false]
    exact tget_tins_self _ _ _ _ fun e he => by simpa using (List.mem_filter.1 he).2

/-- Other entries stay. -/
theorem tget_tset_ne (t : Table α) (d : α) {k j : Nat} (x : α) (h : j ≠ k) : tget (tset t d k x) d j = tget t d j := by
  unfold tset
  by_cases hx : x = d
  · simp only [hx, if_true]
    exact tget_filter_ne t d h
  · simp only [hx, if_false]
    rw [tget_tins_ne _ _ _ h, tget_filter_ne t d h]

/-- Reading after a write. -/
theorem tget_tset (t : Table α) (d : α) (k j : Nat) (x : α) :
    tget (tset t d k x) d j = if j = k then x else tget t d j := by
  by_cases h : j = k
  · subst h; simp
  · simp [h, tget_tset_ne t d x h]

omit [DecidableEq α] in
theorem filter_tins (t : Table α) (k : Nat) (x : α) :
    (tins t k x).filter (fun e => decide (e.1 ≠ k)) = t.filter fun e => decide (e.1 ≠ k) := by
  induction t with
  | nil => simp [tins]
  | cons e t ih =>
    obtain ⟨i, v⟩ := e
    unfold tins
    split
    · simp
    · rw [List.filter_cons, List.filter_cons, ih]

/-- The later of two writes to one entry stands. -/
@[simp] theorem tset_tset (t : Table α) (d : α) (k : Nat) (x y : α) : tset (tset t d k x) d k y = tset t d k y := by
  have h : (tset t d k x).filter (fun e => decide (e.1 ≠ k)) = t.filter fun e => decide (e.1 ≠ k) := by
    unfold tset
    by_cases hx : x = d
    · simp [hx, List.filter_filter]
    · simp only [hx, if_false]
      rw [filter_tins, List.filter_filter]
      simp
  unfold tset at h ⊢
  simp only [h]

@[simp] theorem tget_tupd_self (t : Table α) (d : α) (k : Nat) (f : α → α) : tget (tupd t d k f) d k = f (tget t d k) := by
  simp [tupd]
theorem tget_tupd_ne (t : Table α) (d : α) {k j : Nat} (f : α → α) (h : j ≠ k) : tget (tupd t d k f) d j = tget t d j :=
  tget_tset_ne t d _ h

/-! ### Canonical form -/

theorem twf_mono {d : α} {lo lo' : Nat} (t : Table α) (h : lo' ≤ lo) (w : twf d lo t = true) : twf d lo' t = true := by
  cases t with
  | nil => rfl
  | cons e t =>
    obtain ⟨j, v⟩ := e
    simp only [twf, Bool.and_eq_true, decide_eq_true_eq] at w ⊢
    exact ⟨⟨by omega, w.1.2⟩, w.2⟩

theorem twf_filter {d : α} (p : Nat × α → Bool) (t : Table α) : ∀ lo, twf d lo t = true → twf d lo (t.filter p) = true := by
  induction t with
  | nil => intro lo _; rfl
  | cons e t ih =>
    obtain ⟨j, v⟩ := e
    intro lo w
    simp only [twf, Bool.and_eq_true, decide_eq_true_eq] at w
    rw [List.filter_cons]
    split
    · simp only [twf, Bool.and_eq_true, decide_eq_true_eq]
      exact ⟨w.1, ih _ w.2⟩
    · exact twf_mono _ (by omega) (ih _ w.2)

theorem twf_tins {d : α} (k : Nat) (x : α) (hx : x ≠ d) (t : Table α) :
    ∀ lo, lo ≤ k → (∀ e ∈ t, e.1 ≠ k) → twf d lo t = true → twf d lo (tins t k x) = true := by
  induction t with
  | nil => intro lo h _ _; simp [tins, twf, h, hx]
  | cons e t ih =>
    obtain ⟨j, v⟩ := e
    intro lo h hk w
    have hj : j ≠ k := hk (j, v) (by simp)
    simp only [twf, Bool.and_eq_true, decide_eq_true_eq] at w
    unfold tins
    split
    · simp only [twf, Bool.and_eq_true, decide_eq_true_eq]
      exact ⟨⟨h, hx⟩, ⟨by omega, w.1.2⟩, w.2⟩
    · simp only [twf, Bool.and_eq_true, decide_eq_true_eq]
      exact ⟨w.1, ih _ (by omega) (fun e he => hk e (by simp [he])) w.2⟩

/-- A write keeps the canonical form. -/
theorem twf_tset {d : α} (t : Table α) (k : Nat) (x : α) (w : twf d 0 t = true) : twf d 0 (tset t d k x) = true := by
  unfold tset
  by_cases hx : x = d
  · simp only [hx, if_true]
    exact twf_filter _ _ _ w
  · simp only [hx, if_false]
    exact twf_tins k x hx _ 0 (Nat.zero_le _) (fun e he => by simpa using (List.mem_filter.1 he).2) (twf_filter _ _ _ w)

theorem twf_tupd {d : α} (t : Table α) (k : Nat) (f : α → α) (w : twf d 0 t = true) : twf d 0 (tupd t d k f) = true :=
  twf_tset t k _ w

/-! ### Memory -/

/-- Empty memory is canonical. -/
theorem memory_wf_nil : Memory.wf [] = true := rfl

/-- Writing a byte keeps memory canonical. -/
theorem memory_wf_tset {m : List Host.Cell} (k : Nat) (b : Byte) (h : Memory.wf m = true) : Memory.wf (tset m 0 k b) = true :=
  twf_tset m k b h

/-- Writing bytes keeps memory canonical. -/
theorem memory_wf_putList (bs : List Byte) : ∀ (m : List Host.Cell) (a n : Nat), Memory.wf m = true → Memory.wf (putList m a n bs) = true := by
  induction bs with
  | nil => intro m a n h; exact h
  | cons b bs ih => intro m a n h; exact ih _ _ _ (memory_wf_tset _ _ h)

/-- A byte outside those written stays. -/
theorem tget_putList_ne (bs : List Byte) : ∀ (m : List Host.Cell) (a n j : Nat), (∀ i, i < bs.length → j ≠ (a + i) % n) →
    tget (putList m a n bs) 0 j = tget m 0 j := by
  induction bs with
  | nil => intro m a n j _; rfl
  | cons b bs ih =>
    intro m a n j h
    simp only [putList]
    rw [ih _ _ _ _ fun i hi => ?_, tget_tset_ne]
    · simpa using h 0 (by simp)
    · have := h (i + 1) (by simp; omega)
      rwa [show a + 1 + i = a + (i + 1) by omega]

end Sys2Proof.Machine
end

