-- ==== Sys2Proof/Laws/State.lean ====
section
/-!
SUPPORT. One lemma per field of State and update of it: an update leaves every other field, and what is written is read
back.
-/
namespace Sys2Proof.Machine

/-! `State.setCore` -/
@[simp] theorem State.setCore_pending (s : State) (c : Nat) (k : Core) : (s.setCore c k).pending = s.pending := rfl
@[simp] theorem State.setCore_vaults (s : State) (c : Nat) (k : Core) : (s.setCore c k).vaults = s.vaults := rfl
@[simp] theorem State.setCore_clusters (s : State) (c : Nat) (k : Core) : (s.setCore c k).clusters = s.clusters := rfl
@[simp] theorem State.setCore_regions (s : State) (c : Nat) (k : Core) : (s.setCore c k).regions = s.regions := rfl
@[simp] theorem State.setCore_snaps (s : State) (c : Nat) (k : Core) : (s.setCore c k).snaps = s.snaps := rfl
@[simp] theorem State.setCore_links (s : State) (c : Nat) (k : Core) : (s.setCore c k).links = s.links := rfl
@[simp] theorem State.setCore_tree (s : State) (c : Nat) (k : Core) : (s.setCore c k).tree = s.tree := rfl
@[simp] theorem State.setCore_parts (s : State) (c : Nat) (k : Core) : (s.setCore c k).parts = s.parts := rfl
@[simp] theorem State.setCore_srv (s : State) (c : Nat) (k : Core) : (s.setCore c k).srv = s.srv := rfl
@[simp] theorem State.setCore_eth (s : State) (c : Nat) (k : Core) : (s.setCore c k).eth = s.eth := rfl
@[simp] theorem State.setCore_xfers (s : State) (c : Nat) (k : Core) : (s.setCore c k).xfers = s.xfers := rfl
@[simp] theorem State.setCore_nextXfer (s : State) (c : Nat) (k : Core) : (s.setCore c k).nextXfer = s.nextXfer := rfl
@[simp] theorem State.setCore_spl (s : State) (c : Nat) (k : Core) : (s.setCore c k).spl = s.spl := rfl
@[simp] theorem State.setCore_clk (s : State) (c : Nat) (k : Core) : (s.setCore c k).clk = s.clk := rfl
@[simp] theorem State.setCore_pwr (s : State) (c : Nat) (k : Core) : (s.setCore c k).pwr = s.pwr := rfl
@[simp] theorem State.setCore_thm (s : State) (c : Nat) (k : Core) : (s.setCore c k).thm = s.thm := rfl
@[simp] theorem State.setCore_boot (s : State) (c : Nat) (k : Core) : (s.setCore c k).boot = s.boot := rfl
@[simp] theorem State.setCore_evt (s : State) (c : Nat) (k : Core) : (s.setCore c k).evt = s.evt := rfl
@[simp] theorem State.setCore_draws (s : State) (c : Nat) (k : Core) : (s.setCore c k).draws = s.draws := rfl

/-! `State.updCore` -/
@[simp] theorem State.updCore_pending (s : State) (c : Nat) (f : Core → Core) : (s.updCore c f).pending = s.pending := rfl
@[simp] theorem State.updCore_vaults (s : State) (c : Nat) (f : Core → Core) : (s.updCore c f).vaults = s.vaults := rfl
@[simp] theorem State.updCore_clusters (s : State) (c : Nat) (f : Core → Core) : (s.updCore c f).clusters = s.clusters := rfl
@[simp] theorem State.updCore_regions (s : State) (c : Nat) (f : Core → Core) : (s.updCore c f).regions = s.regions := rfl
@[simp] theorem State.updCore_snaps (s : State) (c : Nat) (f : Core → Core) : (s.updCore c f).snaps = s.snaps := rfl
@[simp] theorem State.updCore_links (s : State) (c : Nat) (f : Core → Core) : (s.updCore c f).links = s.links := rfl
@[simp] theorem State.updCore_tree (s : State) (c : Nat) (f : Core → Core) : (s.updCore c f).tree = s.tree := rfl
@[simp] theorem State.updCore_parts (s : State) (c : Nat) (f : Core → Core) : (s.updCore c f).parts = s.parts := rfl
@[simp] theorem State.updCore_srv (s : State) (c : Nat) (f : Core → Core) : (s.updCore c f).srv = s.srv := rfl
@[simp] theorem State.updCore_eth (s : State) (c : Nat) (f : Core → Core) : (s.updCore c f).eth = s.eth := rfl
@[simp] theorem State.updCore_xfers (s : State) (c : Nat) (f : Core → Core) : (s.updCore c f).xfers = s.xfers := rfl
@[simp] theorem State.updCore_nextXfer (s : State) (c : Nat) (f : Core → Core) : (s.updCore c f).nextXfer = s.nextXfer := rfl
@[simp] theorem State.updCore_spl (s : State) (c : Nat) (f : Core → Core) : (s.updCore c f).spl = s.spl := rfl
@[simp] theorem State.updCore_clk (s : State) (c : Nat) (f : Core → Core) : (s.updCore c f).clk = s.clk := rfl
@[simp] theorem State.updCore_pwr (s : State) (c : Nat) (f : Core → Core) : (s.updCore c f).pwr = s.pwr := rfl
@[simp] theorem State.updCore_thm (s : State) (c : Nat) (f : Core → Core) : (s.updCore c f).thm = s.thm := rfl
@[simp] theorem State.updCore_boot (s : State) (c : Nat) (f : Core → Core) : (s.updCore c f).boot = s.boot := rfl
@[simp] theorem State.updCore_evt (s : State) (c : Nat) (f : Core → Core) : (s.updCore c f).evt = s.evt := rfl
@[simp] theorem State.updCore_draws (s : State) (c : Nat) (f : Core → Core) : (s.updCore c f).draws = s.draws := rfl

/-! `State.setVault` -/
@[simp] theorem State.setVault_pending (s : State) (c : Nat) (v : Vault) : (s.setVault c v).pending = s.pending := rfl
@[simp] theorem State.setVault_cores (s : State) (c : Nat) (v : Vault) : (s.setVault c v).cores = s.cores := rfl
@[simp] theorem State.setVault_clusters (s : State) (c : Nat) (v : Vault) : (s.setVault c v).clusters = s.clusters := rfl
@[simp] theorem State.setVault_regions (s : State) (c : Nat) (v : Vault) : (s.setVault c v).regions = s.regions := rfl
@[simp] theorem State.setVault_snaps (s : State) (c : Nat) (v : Vault) : (s.setVault c v).snaps = s.snaps := rfl
@[simp] theorem State.setVault_links (s : State) (c : Nat) (v : Vault) : (s.setVault c v).links = s.links := rfl
@[simp] theorem State.setVault_tree (s : State) (c : Nat) (v : Vault) : (s.setVault c v).tree = s.tree := rfl
@[simp] theorem State.setVault_parts (s : State) (c : Nat) (v : Vault) : (s.setVault c v).parts = s.parts := rfl
@[simp] theorem State.setVault_srv (s : State) (c : Nat) (v : Vault) : (s.setVault c v).srv = s.srv := rfl
@[simp] theorem State.setVault_eth (s : State) (c : Nat) (v : Vault) : (s.setVault c v).eth = s.eth := rfl
@[simp] theorem State.setVault_xfers (s : State) (c : Nat) (v : Vault) : (s.setVault c v).xfers = s.xfers := rfl
@[simp] theorem State.setVault_nextXfer (s : State) (c : Nat) (v : Vault) : (s.setVault c v).nextXfer = s.nextXfer := rfl
@[simp] theorem State.setVault_spl (s : State) (c : Nat) (v : Vault) : (s.setVault c v).spl = s.spl := rfl
@[simp] theorem State.setVault_clk (s : State) (c : Nat) (v : Vault) : (s.setVault c v).clk = s.clk := rfl
@[simp] theorem State.setVault_pwr (s : State) (c : Nat) (v : Vault) : (s.setVault c v).pwr = s.pwr := rfl
@[simp] theorem State.setVault_thm (s : State) (c : Nat) (v : Vault) : (s.setVault c v).thm = s.thm := rfl
@[simp] theorem State.setVault_boot (s : State) (c : Nat) (v : Vault) : (s.setVault c v).boot = s.boot := rfl
@[simp] theorem State.setVault_evt (s : State) (c : Nat) (v : Vault) : (s.setVault c v).evt = s.evt := rfl
@[simp] theorem State.setVault_draws (s : State) (c : Nat) (v : Vault) : (s.setVault c v).draws = s.draws := rfl

/-! `State.updCluster` -/
@[simp] theorem State.updCluster_pending (s : State) (u : Nat) (f : Cluster → Cluster) : (s.updCluster u f).pending = s.pending := rfl
@[simp] theorem State.updCluster_cores (s : State) (u : Nat) (f : Cluster → Cluster) : (s.updCluster u f).cores = s.cores := rfl
@[simp] theorem State.updCluster_vaults (s : State) (u : Nat) (f : Cluster → Cluster) : (s.updCluster u f).vaults = s.vaults := rfl
@[simp] theorem State.updCluster_regions (s : State) (u : Nat) (f : Cluster → Cluster) : (s.updCluster u f).regions = s.regions := rfl
@[simp] theorem State.updCluster_snaps (s : State) (u : Nat) (f : Cluster → Cluster) : (s.updCluster u f).snaps = s.snaps := rfl
@[simp] theorem State.updCluster_links (s : State) (u : Nat) (f : Cluster → Cluster) : (s.updCluster u f).links = s.links := rfl
@[simp] theorem State.updCluster_tree (s : State) (u : Nat) (f : Cluster → Cluster) : (s.updCluster u f).tree = s.tree := rfl
@[simp] theorem State.updCluster_parts (s : State) (u : Nat) (f : Cluster → Cluster) : (s.updCluster u f).parts = s.parts := rfl
@[simp] theorem State.updCluster_srv (s : State) (u : Nat) (f : Cluster → Cluster) : (s.updCluster u f).srv = s.srv := rfl
@[simp] theorem State.updCluster_eth (s : State) (u : Nat) (f : Cluster → Cluster) : (s.updCluster u f).eth = s.eth := rfl
@[simp] theorem State.updCluster_xfers (s : State) (u : Nat) (f : Cluster → Cluster) : (s.updCluster u f).xfers = s.xfers := rfl
@[simp] theorem State.updCluster_nextXfer (s : State) (u : Nat) (f : Cluster → Cluster) : (s.updCluster u f).nextXfer = s.nextXfer := rfl
@[simp] theorem State.updCluster_spl (s : State) (u : Nat) (f : Cluster → Cluster) : (s.updCluster u f).spl = s.spl := rfl
@[simp] theorem State.updCluster_clk (s : State) (u : Nat) (f : Cluster → Cluster) : (s.updCluster u f).clk = s.clk := rfl
@[simp] theorem State.updCluster_pwr (s : State) (u : Nat) (f : Cluster → Cluster) : (s.updCluster u f).pwr = s.pwr := rfl
@[simp] theorem State.updCluster_thm (s : State) (u : Nat) (f : Cluster → Cluster) : (s.updCluster u f).thm = s.thm := rfl
@[simp] theorem State.updCluster_boot (s : State) (u : Nat) (f : Cluster → Cluster) : (s.updCluster u f).boot = s.boot := rfl
@[simp] theorem State.updCluster_evt (s : State) (u : Nat) (f : Cluster → Cluster) : (s.updCluster u f).evt = s.evt := rfl
@[simp] theorem State.updCluster_draws (s : State) (u : Nat) (f : Cluster → Cluster) : (s.updCluster u f).draws = s.draws := rfl

/-! `State.updRegion` -/
@[simp] theorem State.updRegion_pending (s : State) (r : Nat) (f : Region → Region) : (s.updRegion r f).pending = s.pending := rfl
@[simp] theorem State.updRegion_cores (s : State) (r : Nat) (f : Region → Region) : (s.updRegion r f).cores = s.cores := rfl
@[simp] theorem State.updRegion_vaults (s : State) (r : Nat) (f : Region → Region) : (s.updRegion r f).vaults = s.vaults := rfl
@[simp] theorem State.updRegion_clusters (s : State) (r : Nat) (f : Region → Region) : (s.updRegion r f).clusters = s.clusters := rfl
@[simp] theorem State.updRegion_snaps (s : State) (r : Nat) (f : Region → Region) : (s.updRegion r f).snaps = s.snaps := rfl
@[simp] theorem State.updRegion_links (s : State) (r : Nat) (f : Region → Region) : (s.updRegion r f).links = s.links := rfl
@[simp] theorem State.updRegion_tree (s : State) (r : Nat) (f : Region → Region) : (s.updRegion r f).tree = s.tree := rfl
@[simp] theorem State.updRegion_parts (s : State) (r : Nat) (f : Region → Region) : (s.updRegion r f).parts = s.parts := rfl
@[simp] theorem State.updRegion_srv (s : State) (r : Nat) (f : Region → Region) : (s.updRegion r f).srv = s.srv := rfl
@[simp] theorem State.updRegion_eth (s : State) (r : Nat) (f : Region → Region) : (s.updRegion r f).eth = s.eth := rfl
@[simp] theorem State.updRegion_xfers (s : State) (r : Nat) (f : Region → Region) : (s.updRegion r f).xfers = s.xfers := rfl
@[simp] theorem State.updRegion_nextXfer (s : State) (r : Nat) (f : Region → Region) : (s.updRegion r f).nextXfer = s.nextXfer := rfl
@[simp] theorem State.updRegion_spl (s : State) (r : Nat) (f : Region → Region) : (s.updRegion r f).spl = s.spl := rfl
@[simp] theorem State.updRegion_clk (s : State) (r : Nat) (f : Region → Region) : (s.updRegion r f).clk = s.clk := rfl
@[simp] theorem State.updRegion_pwr (s : State) (r : Nat) (f : Region → Region) : (s.updRegion r f).pwr = s.pwr := rfl
@[simp] theorem State.updRegion_thm (s : State) (r : Nat) (f : Region → Region) : (s.updRegion r f).thm = s.thm := rfl
@[simp] theorem State.updRegion_boot (s : State) (r : Nat) (f : Region → Region) : (s.updRegion r f).boot = s.boot := rfl
@[simp] theorem State.updRegion_evt (s : State) (r : Nat) (f : Region → Region) : (s.updRegion r f).evt = s.evt := rfl
@[simp] theorem State.updRegion_draws (s : State) (r : Nat) (f : Region → Region) : (s.updRegion r f).draws = s.draws := rfl

/-! `State.updNet` -/
@[simp] theorem State.updNet_pending (s : State) (r : Nat) (f : RNet → RNet) : (s.updNet r f).pending = s.pending := rfl
@[simp] theorem State.updNet_cores (s : State) (r : Nat) (f : RNet → RNet) : (s.updNet r f).cores = s.cores := rfl
@[simp] theorem State.updNet_vaults (s : State) (r : Nat) (f : RNet → RNet) : (s.updNet r f).vaults = s.vaults := rfl
@[simp] theorem State.updNet_clusters (s : State) (r : Nat) (f : RNet → RNet) : (s.updNet r f).clusters = s.clusters := rfl
@[simp] theorem State.updNet_snaps (s : State) (r : Nat) (f : RNet → RNet) : (s.updNet r f).snaps = s.snaps := rfl
@[simp] theorem State.updNet_links (s : State) (r : Nat) (f : RNet → RNet) : (s.updNet r f).links = s.links := rfl
@[simp] theorem State.updNet_tree (s : State) (r : Nat) (f : RNet → RNet) : (s.updNet r f).tree = s.tree := rfl
@[simp] theorem State.updNet_parts (s : State) (r : Nat) (f : RNet → RNet) : (s.updNet r f).parts = s.parts := rfl
@[simp] theorem State.updNet_srv (s : State) (r : Nat) (f : RNet → RNet) : (s.updNet r f).srv = s.srv := rfl
@[simp] theorem State.updNet_eth (s : State) (r : Nat) (f : RNet → RNet) : (s.updNet r f).eth = s.eth := rfl
@[simp] theorem State.updNet_xfers (s : State) (r : Nat) (f : RNet → RNet) : (s.updNet r f).xfers = s.xfers := rfl
@[simp] theorem State.updNet_nextXfer (s : State) (r : Nat) (f : RNet → RNet) : (s.updNet r f).nextXfer = s.nextXfer := rfl
@[simp] theorem State.updNet_spl (s : State) (r : Nat) (f : RNet → RNet) : (s.updNet r f).spl = s.spl := rfl
@[simp] theorem State.updNet_clk (s : State) (r : Nat) (f : RNet → RNet) : (s.updNet r f).clk = s.clk := rfl
@[simp] theorem State.updNet_pwr (s : State) (r : Nat) (f : RNet → RNet) : (s.updNet r f).pwr = s.pwr := rfl
@[simp] theorem State.updNet_thm (s : State) (r : Nat) (f : RNet → RNet) : (s.updNet r f).thm = s.thm := rfl
@[simp] theorem State.updNet_boot (s : State) (r : Nat) (f : RNet → RNet) : (s.updNet r f).boot = s.boot := rfl
@[simp] theorem State.updNet_evt (s : State) (r : Nat) (f : RNet → RNet) : (s.updNet r f).evt = s.evt := rfl
@[simp] theorem State.updNet_draws (s : State) (r : Nat) (f : RNet → RNet) : (s.updNet r f).draws = s.draws := rfl

/-! `State.updClk` -/
@[simp] theorem State.updClk_pending (s : State) (r : Nat) (f : RClk → RClk) : (s.updClk r f).pending = s.pending := rfl
@[simp] theorem State.updClk_cores (s : State) (r : Nat) (f : RClk → RClk) : (s.updClk r f).cores = s.cores := rfl
@[simp] theorem State.updClk_vaults (s : State) (r : Nat) (f : RClk → RClk) : (s.updClk r f).vaults = s.vaults := rfl
@[simp] theorem State.updClk_clusters (s : State) (r : Nat) (f : RClk → RClk) : (s.updClk r f).clusters = s.clusters := rfl
@[simp] theorem State.updClk_snaps (s : State) (r : Nat) (f : RClk → RClk) : (s.updClk r f).snaps = s.snaps := rfl
@[simp] theorem State.updClk_links (s : State) (r : Nat) (f : RClk → RClk) : (s.updClk r f).links = s.links := rfl
@[simp] theorem State.updClk_tree (s : State) (r : Nat) (f : RClk → RClk) : (s.updClk r f).tree = s.tree := rfl
@[simp] theorem State.updClk_parts (s : State) (r : Nat) (f : RClk → RClk) : (s.updClk r f).parts = s.parts := rfl
@[simp] theorem State.updClk_srv (s : State) (r : Nat) (f : RClk → RClk) : (s.updClk r f).srv = s.srv := rfl
@[simp] theorem State.updClk_eth (s : State) (r : Nat) (f : RClk → RClk) : (s.updClk r f).eth = s.eth := rfl
@[simp] theorem State.updClk_xfers (s : State) (r : Nat) (f : RClk → RClk) : (s.updClk r f).xfers = s.xfers := rfl
@[simp] theorem State.updClk_nextXfer (s : State) (r : Nat) (f : RClk → RClk) : (s.updClk r f).nextXfer = s.nextXfer := rfl
@[simp] theorem State.updClk_spl (s : State) (r : Nat) (f : RClk → RClk) : (s.updClk r f).spl = s.spl := rfl
@[simp] theorem State.updClk_clk (s : State) (r : Nat) (f : RClk → RClk) : (s.updClk r f).clk = s.clk := rfl
@[simp] theorem State.updClk_pwr (s : State) (r : Nat) (f : RClk → RClk) : (s.updClk r f).pwr = s.pwr := rfl
@[simp] theorem State.updClk_thm (s : State) (r : Nat) (f : RClk → RClk) : (s.updClk r f).thm = s.thm := rfl
@[simp] theorem State.updClk_boot (s : State) (r : Nat) (f : RClk → RClk) : (s.updClk r f).boot = s.boot := rfl
@[simp] theorem State.updClk_evt (s : State) (r : Nat) (f : RClk → RClk) : (s.updClk r f).evt = s.evt := rfl
@[simp] theorem State.updClk_draws (s : State) (r : Nat) (f : RClk → RClk) : (s.updClk r f).draws = s.draws := rfl

/-! `State.updPart` -/
@[simp] theorem State.updPart_pending (s : State) (p : Nat) (f : Part → Part) : (s.updPart p f).pending = s.pending := rfl
@[simp] theorem State.updPart_cores (s : State) (p : Nat) (f : Part → Part) : (s.updPart p f).cores = s.cores := rfl
@[simp] theorem State.updPart_vaults (s : State) (p : Nat) (f : Part → Part) : (s.updPart p f).vaults = s.vaults := rfl
@[simp] theorem State.updPart_clusters (s : State) (p : Nat) (f : Part → Part) : (s.updPart p f).clusters = s.clusters := rfl
@[simp] theorem State.updPart_regions (s : State) (p : Nat) (f : Part → Part) : (s.updPart p f).regions = s.regions := rfl
@[simp] theorem State.updPart_snaps (s : State) (p : Nat) (f : Part → Part) : (s.updPart p f).snaps = s.snaps := rfl
@[simp] theorem State.updPart_links (s : State) (p : Nat) (f : Part → Part) : (s.updPart p f).links = s.links := rfl
@[simp] theorem State.updPart_tree (s : State) (p : Nat) (f : Part → Part) : (s.updPart p f).tree = s.tree := rfl
@[simp] theorem State.updPart_srv (s : State) (p : Nat) (f : Part → Part) : (s.updPart p f).srv = s.srv := rfl
@[simp] theorem State.updPart_eth (s : State) (p : Nat) (f : Part → Part) : (s.updPart p f).eth = s.eth := rfl
@[simp] theorem State.updPart_xfers (s : State) (p : Nat) (f : Part → Part) : (s.updPart p f).xfers = s.xfers := rfl
@[simp] theorem State.updPart_nextXfer (s : State) (p : Nat) (f : Part → Part) : (s.updPart p f).nextXfer = s.nextXfer := rfl
@[simp] theorem State.updPart_spl (s : State) (p : Nat) (f : Part → Part) : (s.updPart p f).spl = s.spl := rfl
@[simp] theorem State.updPart_clk (s : State) (p : Nat) (f : Part → Part) : (s.updPart p f).clk = s.clk := rfl
@[simp] theorem State.updPart_pwr (s : State) (p : Nat) (f : Part → Part) : (s.updPart p f).pwr = s.pwr := rfl
@[simp] theorem State.updPart_thm (s : State) (p : Nat) (f : Part → Part) : (s.updPart p f).thm = s.thm := rfl
@[simp] theorem State.updPart_boot (s : State) (p : Nat) (f : Part → Part) : (s.updPart p f).boot = s.boot := rfl
@[simp] theorem State.updPart_evt (s : State) (p : Nat) (f : Part → Part) : (s.updPart p f).evt = s.evt := rfl
@[simp] theorem State.updPart_draws (s : State) (p : Nat) (f : Part → Part) : (s.updPart p f).draws = s.draws := rfl

/-! `State.setSession` -/
@[simp] theorem State.setSession_pending (s : State) (i : Nat) (h : Session) : (s.setSession i h).pending = s.pending := rfl
@[simp] theorem State.setSession_cores (s : State) (i : Nat) (h : Session) : (s.setSession i h).cores = s.cores := rfl
@[simp] theorem State.setSession_vaults (s : State) (i : Nat) (h : Session) : (s.setSession i h).vaults = s.vaults := rfl
@[simp] theorem State.setSession_clusters (s : State) (i : Nat) (h : Session) : (s.setSession i h).clusters = s.clusters := rfl
@[simp] theorem State.setSession_regions (s : State) (i : Nat) (h : Session) : (s.setSession i h).regions = s.regions := rfl
@[simp] theorem State.setSession_snaps (s : State) (i : Nat) (h : Session) : (s.setSession i h).snaps = s.snaps := rfl
@[simp] theorem State.setSession_links (s : State) (i : Nat) (h : Session) : (s.setSession i h).links = s.links := rfl
@[simp] theorem State.setSession_tree (s : State) (i : Nat) (h : Session) : (s.setSession i h).tree = s.tree := rfl
@[simp] theorem State.setSession_parts (s : State) (i : Nat) (h : Session) : (s.setSession i h).parts = s.parts := rfl
@[simp] theorem State.setSession_srv (s : State) (i : Nat) (h : Session) : (s.setSession i h).srv = s.srv := rfl
@[simp] theorem State.setSession_xfers (s : State) (i : Nat) (h : Session) : (s.setSession i h).xfers = s.xfers := rfl
@[simp] theorem State.setSession_nextXfer (s : State) (i : Nat) (h : Session) : (s.setSession i h).nextXfer = s.nextXfer := rfl
@[simp] theorem State.setSession_spl (s : State) (i : Nat) (h : Session) : (s.setSession i h).spl = s.spl := rfl
@[simp] theorem State.setSession_clk (s : State) (i : Nat) (h : Session) : (s.setSession i h).clk = s.clk := rfl
@[simp] theorem State.setSession_pwr (s : State) (i : Nat) (h : Session) : (s.setSession i h).pwr = s.pwr := rfl
@[simp] theorem State.setSession_thm (s : State) (i : Nat) (h : Session) : (s.setSession i h).thm = s.thm := rfl
@[simp] theorem State.setSession_boot (s : State) (i : Nat) (h : Session) : (s.setSession i h).boot = s.boot := rfl
@[simp] theorem State.setSession_evt (s : State) (i : Nat) (h : Session) : (s.setSession i h).evt = s.evt := rfl
@[simp] theorem State.setSession_draws (s : State) (i : Nat) (h : Session) : (s.setSession i h).draws = s.draws := rfl

/-! `State.updCard` -/
@[simp] theorem State.updCard_pending (s : State) (c : Nat) (f : Card → Card) : (s.updCard c f).pending = s.pending := rfl
@[simp] theorem State.updCard_cores (s : State) (c : Nat) (f : Card → Card) : (s.updCard c f).cores = s.cores := rfl
@[simp] theorem State.updCard_vaults (s : State) (c : Nat) (f : Card → Card) : (s.updCard c f).vaults = s.vaults := rfl
@[simp] theorem State.updCard_clusters (s : State) (c : Nat) (f : Card → Card) : (s.updCard c f).clusters = s.clusters := rfl
@[simp] theorem State.updCard_regions (s : State) (c : Nat) (f : Card → Card) : (s.updCard c f).regions = s.regions := rfl
@[simp] theorem State.updCard_snaps (s : State) (c : Nat) (f : Card → Card) : (s.updCard c f).snaps = s.snaps := rfl
@[simp] theorem State.updCard_links (s : State) (c : Nat) (f : Card → Card) : (s.updCard c f).links = s.links := rfl
@[simp] theorem State.updCard_tree (s : State) (c : Nat) (f : Card → Card) : (s.updCard c f).tree = s.tree := rfl
@[simp] theorem State.updCard_parts (s : State) (c : Nat) (f : Card → Card) : (s.updCard c f).parts = s.parts := rfl
@[simp] theorem State.updCard_srv (s : State) (c : Nat) (f : Card → Card) : (s.updCard c f).srv = s.srv := rfl
@[simp] theorem State.updCard_eth (s : State) (c : Nat) (f : Card → Card) : (s.updCard c f).eth = s.eth := rfl
@[simp] theorem State.updCard_xfers (s : State) (c : Nat) (f : Card → Card) : (s.updCard c f).xfers = s.xfers := rfl
@[simp] theorem State.updCard_nextXfer (s : State) (c : Nat) (f : Card → Card) : (s.updCard c f).nextXfer = s.nextXfer := rfl
@[simp] theorem State.updCard_clk (s : State) (c : Nat) (f : Card → Card) : (s.updCard c f).clk = s.clk := rfl
@[simp] theorem State.updCard_pwr (s : State) (c : Nat) (f : Card → Card) : (s.updCard c f).pwr = s.pwr := rfl
@[simp] theorem State.updCard_thm (s : State) (c : Nat) (f : Card → Card) : (s.updCard c f).thm = s.thm := rfl
@[simp] theorem State.updCard_boot (s : State) (c : Nat) (f : Card → Card) : (s.updCard c f).boot = s.boot := rfl
@[simp] theorem State.updCard_evt (s : State) (c : Nat) (f : Card → Card) : (s.updCard c f).evt = s.evt := rfl
@[simp] theorem State.updCard_draws (s : State) (c : Nat) (f : Card → Card) : (s.updCard c f).draws = s.draws := rfl

/-! `State.updReq` -/
@[simp] theorem State.updReq_pending (s : State) (i : Nat) (f : Request → Request) : (s.updReq i f).pending = s.pending := rfl
@[simp] theorem State.updReq_cores (s : State) (i : Nat) (f : Request → Request) : (s.updReq i f).cores = s.cores := rfl
@[simp] theorem State.updReq_vaults (s : State) (i : Nat) (f : Request → Request) : (s.updReq i f).vaults = s.vaults := rfl
@[simp] theorem State.updReq_clusters (s : State) (i : Nat) (f : Request → Request) : (s.updReq i f).clusters = s.clusters := rfl
@[simp] theorem State.updReq_regions (s : State) (i : Nat) (f : Request → Request) : (s.updReq i f).regions = s.regions := rfl
@[simp] theorem State.updReq_snaps (s : State) (i : Nat) (f : Request → Request) : (s.updReq i f).snaps = s.snaps := rfl
@[simp] theorem State.updReq_links (s : State) (i : Nat) (f : Request → Request) : (s.updReq i f).links = s.links := rfl
@[simp] theorem State.updReq_tree (s : State) (i : Nat) (f : Request → Request) : (s.updReq i f).tree = s.tree := rfl
@[simp] theorem State.updReq_parts (s : State) (i : Nat) (f : Request → Request) : (s.updReq i f).parts = s.parts := rfl
@[simp] theorem State.updReq_eth (s : State) (i : Nat) (f : Request → Request) : (s.updReq i f).eth = s.eth := rfl
@[simp] theorem State.updReq_xfers (s : State) (i : Nat) (f : Request → Request) : (s.updReq i f).xfers = s.xfers := rfl
@[simp] theorem State.updReq_nextXfer (s : State) (i : Nat) (f : Request → Request) : (s.updReq i f).nextXfer = s.nextXfer := rfl
@[simp] theorem State.updReq_spl (s : State) (i : Nat) (f : Request → Request) : (s.updReq i f).spl = s.spl := rfl
@[simp] theorem State.updReq_clk (s : State) (i : Nat) (f : Request → Request) : (s.updReq i f).clk = s.clk := rfl
@[simp] theorem State.updReq_pwr (s : State) (i : Nat) (f : Request → Request) : (s.updReq i f).pwr = s.pwr := rfl
@[simp] theorem State.updReq_thm (s : State) (i : Nat) (f : Request → Request) : (s.updReq i f).thm = s.thm := rfl
@[simp] theorem State.updReq_boot (s : State) (i : Nat) (f : Request → Request) : (s.updReq i f).boot = s.boot := rfl
@[simp] theorem State.updReq_evt (s : State) (i : Nat) (f : Request → Request) : (s.updReq i f).evt = s.evt := rfl
@[simp] theorem State.updReq_draws (s : State) (i : Nat) (f : Request → Request) : (s.updReq i f).draws = s.draws := rfl

/-! `State.updTenant` -/
@[simp] theorem State.updTenant_pending (s : State) (t : Nat) (f : Tenant → Tenant) : (s.updTenant t f).pending = s.pending := rfl
@[simp] theorem State.updTenant_cores (s : State) (t : Nat) (f : Tenant → Tenant) : (s.updTenant t f).cores = s.cores := rfl
@[simp] theorem State.updTenant_vaults (s : State) (t : Nat) (f : Tenant → Tenant) : (s.updTenant t f).vaults = s.vaults := rfl
@[simp] theorem State.updTenant_clusters (s : State) (t : Nat) (f : Tenant → Tenant) : (s.updTenant t f).clusters = s.clusters := rfl
@[simp] theorem State.updTenant_regions (s : State) (t : Nat) (f : Tenant → Tenant) : (s.updTenant t f).regions = s.regions := rfl
@[simp] theorem State.updTenant_snaps (s : State) (t : Nat) (f : Tenant → Tenant) : (s.updTenant t f).snaps = s.snaps := rfl
@[simp] theorem State.updTenant_links (s : State) (t : Nat) (f : Tenant → Tenant) : (s.updTenant t f).links = s.links := rfl
@[simp] theorem State.updTenant_tree (s : State) (t : Nat) (f : Tenant → Tenant) : (s.updTenant t f).tree = s.tree := rfl
@[simp] theorem State.updTenant_parts (s : State) (t : Nat) (f : Tenant → Tenant) : (s.updTenant t f).parts = s.parts := rfl
@[simp] theorem State.updTenant_eth (s : State) (t : Nat) (f : Tenant → Tenant) : (s.updTenant t f).eth = s.eth := rfl
@[simp] theorem State.updTenant_xfers (s : State) (t : Nat) (f : Tenant → Tenant) : (s.updTenant t f).xfers = s.xfers := rfl
@[simp] theorem State.updTenant_nextXfer (s : State) (t : Nat) (f : Tenant → Tenant) : (s.updTenant t f).nextXfer = s.nextXfer := rfl
@[simp] theorem State.updTenant_spl (s : State) (t : Nat) (f : Tenant → Tenant) : (s.updTenant t f).spl = s.spl := rfl
@[simp] theorem State.updTenant_clk (s : State) (t : Nat) (f : Tenant → Tenant) : (s.updTenant t f).clk = s.clk := rfl
@[simp] theorem State.updTenant_pwr (s : State) (t : Nat) (f : Tenant → Tenant) : (s.updTenant t f).pwr = s.pwr := rfl
@[simp] theorem State.updTenant_thm (s : State) (t : Nat) (f : Tenant → Tenant) : (s.updTenant t f).thm = s.thm := rfl
@[simp] theorem State.updTenant_boot (s : State) (t : Nat) (f : Tenant → Tenant) : (s.updTenant t f).boot = s.boot := rfl
@[simp] theorem State.updTenant_evt (s : State) (t : Nat) (f : Tenant → Tenant) : (s.updTenant t f).evt = s.evt := rfl
@[simp] theorem State.updTenant_draws (s : State) (t : Nat) (f : Tenant → Tenant) : (s.updTenant t f).draws = s.draws := rfl

/-! `State.updComp` -/
@[simp] theorem State.updComp_pending (s : State) (k : Nat) (f : Comp → Comp) : (s.updComp k f).pending = s.pending := rfl
@[simp] theorem State.updComp_cores (s : State) (k : Nat) (f : Comp → Comp) : (s.updComp k f).cores = s.cores := rfl
@[simp] theorem State.updComp_vaults (s : State) (k : Nat) (f : Comp → Comp) : (s.updComp k f).vaults = s.vaults := rfl
@[simp] theorem State.updComp_clusters (s : State) (k : Nat) (f : Comp → Comp) : (s.updComp k f).clusters = s.clusters := rfl
@[simp] theorem State.updComp_regions (s : State) (k : Nat) (f : Comp → Comp) : (s.updComp k f).regions = s.regions := rfl
@[simp] theorem State.updComp_snaps (s : State) (k : Nat) (f : Comp → Comp) : (s.updComp k f).snaps = s.snaps := rfl
@[simp] theorem State.updComp_links (s : State) (k : Nat) (f : Comp → Comp) : (s.updComp k f).links = s.links := rfl
@[simp] theorem State.updComp_tree (s : State) (k : Nat) (f : Comp → Comp) : (s.updComp k f).tree = s.tree := rfl
@[simp] theorem State.updComp_parts (s : State) (k : Nat) (f : Comp → Comp) : (s.updComp k f).parts = s.parts := rfl
@[simp] theorem State.updComp_srv (s : State) (k : Nat) (f : Comp → Comp) : (s.updComp k f).srv = s.srv := rfl
@[simp] theorem State.updComp_eth (s : State) (k : Nat) (f : Comp → Comp) : (s.updComp k f).eth = s.eth := rfl
@[simp] theorem State.updComp_xfers (s : State) (k : Nat) (f : Comp → Comp) : (s.updComp k f).xfers = s.xfers := rfl
@[simp] theorem State.updComp_nextXfer (s : State) (k : Nat) (f : Comp → Comp) : (s.updComp k f).nextXfer = s.nextXfer := rfl
@[simp] theorem State.updComp_spl (s : State) (k : Nat) (f : Comp → Comp) : (s.updComp k f).spl = s.spl := rfl
@[simp] theorem State.updComp_clk (s : State) (k : Nat) (f : Comp → Comp) : (s.updComp k f).clk = s.clk := rfl
@[simp] theorem State.updComp_pwr (s : State) (k : Nat) (f : Comp → Comp) : (s.updComp k f).pwr = s.pwr := rfl
@[simp] theorem State.updComp_thm (s : State) (k : Nat) (f : Comp → Comp) : (s.updComp k f).thm = s.thm := rfl
@[simp] theorem State.updComp_evt (s : State) (k : Nat) (f : Comp → Comp) : (s.updComp k f).evt = s.evt := rfl
@[simp] theorem State.updComp_draws (s : State) (k : Nat) (f : Comp → Comp) : (s.updComp k f).draws = s.draws := rfl

/-! `State.updTree` -/
@[simp] theorem State.updTree_pending (s : State) (f : Tree → Tree) : (s.updTree f).pending = s.pending := rfl
@[simp] theorem State.updTree_cores (s : State) (f : Tree → Tree) : (s.updTree f).cores = s.cores := rfl
@[simp] theorem State.updTree_vaults (s : State) (f : Tree → Tree) : (s.updTree f).vaults = s.vaults := rfl
@[simp] theorem State.updTree_clusters (s : State) (f : Tree → Tree) : (s.updTree f).clusters = s.clusters := rfl
@[simp] theorem State.updTree_regions (s : State) (f : Tree → Tree) : (s.updTree f).regions = s.regions := rfl
@[simp] theorem State.updTree_snaps (s : State) (f : Tree → Tree) : (s.updTree f).snaps = s.snaps := rfl
@[simp] theorem State.updTree_links (s : State) (f : Tree → Tree) : (s.updTree f).links = s.links := rfl
@[simp] theorem State.updTree_parts (s : State) (f : Tree → Tree) : (s.updTree f).parts = s.parts := rfl
@[simp] theorem State.updTree_srv (s : State) (f : Tree → Tree) : (s.updTree f).srv = s.srv := rfl
@[simp] theorem State.updTree_eth (s : State) (f : Tree → Tree) : (s.updTree f).eth = s.eth := rfl
@[simp] theorem State.updTree_xfers (s : State) (f : Tree → Tree) : (s.updTree f).xfers = s.xfers := rfl
@[simp] theorem State.updTree_nextXfer (s : State) (f : Tree → Tree) : (s.updTree f).nextXfer = s.nextXfer := rfl
@[simp] theorem State.updTree_spl (s : State) (f : Tree → Tree) : (s.updTree f).spl = s.spl := rfl
@[simp] theorem State.updTree_clk (s : State) (f : Tree → Tree) : (s.updTree f).clk = s.clk := rfl
@[simp] theorem State.updTree_pwr (s : State) (f : Tree → Tree) : (s.updTree f).pwr = s.pwr := rfl
@[simp] theorem State.updTree_thm (s : State) (f : Tree → Tree) : (s.updTree f).thm = s.thm := rfl
@[simp] theorem State.updTree_boot (s : State) (f : Tree → Tree) : (s.updTree f).boot = s.boot := rfl
@[simp] theorem State.updTree_evt (s : State) (f : Tree → Tree) : (s.updTree f).evt = s.evt := rfl
@[simp] theorem State.updTree_draws (s : State) (f : Tree → Tree) : (s.updTree f).draws = s.draws := rfl

/-! `State.updGrp` -/
@[simp] theorem State.updGrp_pending (s : State) (g : Nat) (f : Group → Group) : (s.updGrp g f).pending = s.pending := rfl
@[simp] theorem State.updGrp_cores (s : State) (g : Nat) (f : Group → Group) : (s.updGrp g f).cores = s.cores := rfl
@[simp] theorem State.updGrp_vaults (s : State) (g : Nat) (f : Group → Group) : (s.updGrp g f).vaults = s.vaults := rfl
@[simp] theorem State.updGrp_clusters (s : State) (g : Nat) (f : Group → Group) : (s.updGrp g f).clusters = s.clusters := rfl
@[simp] theorem State.updGrp_regions (s : State) (g : Nat) (f : Group → Group) : (s.updGrp g f).regions = s.regions := rfl
@[simp] theorem State.updGrp_snaps (s : State) (g : Nat) (f : Group → Group) : (s.updGrp g f).snaps = s.snaps := rfl
@[simp] theorem State.updGrp_links (s : State) (g : Nat) (f : Group → Group) : (s.updGrp g f).links = s.links := rfl
@[simp] theorem State.updGrp_tree (s : State) (g : Nat) (f : Group → Group) : (s.updGrp g f).tree = s.tree := rfl
@[simp] theorem State.updGrp_parts (s : State) (g : Nat) (f : Group → Group) : (s.updGrp g f).parts = s.parts := rfl
@[simp] theorem State.updGrp_srv (s : State) (g : Nat) (f : Group → Group) : (s.updGrp g f).srv = s.srv := rfl
@[simp] theorem State.updGrp_eth (s : State) (g : Nat) (f : Group → Group) : (s.updGrp g f).eth = s.eth := rfl
@[simp] theorem State.updGrp_xfers (s : State) (g : Nat) (f : Group → Group) : (s.updGrp g f).xfers = s.xfers := rfl
@[simp] theorem State.updGrp_nextXfer (s : State) (g : Nat) (f : Group → Group) : (s.updGrp g f).nextXfer = s.nextXfer := rfl
@[simp] theorem State.updGrp_spl (s : State) (g : Nat) (f : Group → Group) : (s.updGrp g f).spl = s.spl := rfl
@[simp] theorem State.updGrp_clk (s : State) (g : Nat) (f : Group → Group) : (s.updGrp g f).clk = s.clk := rfl
@[simp] theorem State.updGrp_thm (s : State) (g : Nat) (f : Group → Group) : (s.updGrp g f).thm = s.thm := rfl
@[simp] theorem State.updGrp_boot (s : State) (g : Nat) (f : Group → Group) : (s.updGrp g f).boot = s.boot := rfl
@[simp] theorem State.updGrp_evt (s : State) (g : Nat) (f : Group → Group) : (s.updGrp g f).evt = s.evt := rfl
@[simp] theorem State.updGrp_draws (s : State) (g : Nat) (f : Group → Group) : (s.updGrp g f).draws = s.draws := rfl

/-! `State.updFeed` -/
@[simp] theorem State.updFeed_pending (s : State) (b : Bool) (f : Feed → Feed) : (s.updFeed b f).pending = s.pending := rfl
@[simp] theorem State.updFeed_cores (s : State) (b : Bool) (f : Feed → Feed) : (s.updFeed b f).cores = s.cores := rfl
@[simp] theorem State.updFeed_vaults (s : State) (b : Bool) (f : Feed → Feed) : (s.updFeed b f).vaults = s.vaults := rfl
@[simp] theorem State.updFeed_clusters (s : State) (b : Bool) (f : Feed → Feed) : (s.updFeed b f).clusters = s.clusters := rfl
@[simp] theorem State.updFeed_regions (s : State) (b : Bool) (f : Feed → Feed) : (s.updFeed b f).regions = s.regions := rfl
@[simp] theorem State.updFeed_snaps (s : State) (b : Bool) (f : Feed → Feed) : (s.updFeed b f).snaps = s.snaps := rfl
@[simp] theorem State.updFeed_links (s : State) (b : Bool) (f : Feed → Feed) : (s.updFeed b f).links = s.links := rfl
@[simp] theorem State.updFeed_tree (s : State) (b : Bool) (f : Feed → Feed) : (s.updFeed b f).tree = s.tree := rfl
@[simp] theorem State.updFeed_parts (s : State) (b : Bool) (f : Feed → Feed) : (s.updFeed b f).parts = s.parts := rfl
@[simp] theorem State.updFeed_srv (s : State) (b : Bool) (f : Feed → Feed) : (s.updFeed b f).srv = s.srv := rfl
@[simp] theorem State.updFeed_eth (s : State) (b : Bool) (f : Feed → Feed) : (s.updFeed b f).eth = s.eth := rfl
@[simp] theorem State.updFeed_xfers (s : State) (b : Bool) (f : Feed → Feed) : (s.updFeed b f).xfers = s.xfers := rfl
@[simp] theorem State.updFeed_nextXfer (s : State) (b : Bool) (f : Feed → Feed) : (s.updFeed b f).nextXfer = s.nextXfer := rfl
@[simp] theorem State.updFeed_spl (s : State) (b : Bool) (f : Feed → Feed) : (s.updFeed b f).spl = s.spl := rfl
@[simp] theorem State.updFeed_clk (s : State) (b : Bool) (f : Feed → Feed) : (s.updFeed b f).clk = s.clk := rfl
@[simp] theorem State.updFeed_thm (s : State) (b : Bool) (f : Feed → Feed) : (s.updFeed b f).thm = s.thm := rfl
@[simp] theorem State.updFeed_boot (s : State) (b : Bool) (f : Feed → Feed) : (s.updFeed b f).boot = s.boot := rfl
@[simp] theorem State.updFeed_evt (s : State) (b : Bool) (f : Feed → Feed) : (s.updFeed b f).evt = s.evt := rfl
@[simp] theorem State.updFeed_draws (s : State) (b : Bool) (f : Feed → Feed) : (s.updFeed b f).draws = s.draws := rfl

/-! `State.setXfer` -/
@[simp] theorem State.setXfer_pending (s : State) (x : Xfer) : (s.setXfer x).pending = s.pending := rfl
@[simp] theorem State.setXfer_cores (s : State) (x : Xfer) : (s.setXfer x).cores = s.cores := rfl
@[simp] theorem State.setXfer_vaults (s : State) (x : Xfer) : (s.setXfer x).vaults = s.vaults := rfl
@[simp] theorem State.setXfer_clusters (s : State) (x : Xfer) : (s.setXfer x).clusters = s.clusters := rfl
@[simp] theorem State.setXfer_regions (s : State) (x : Xfer) : (s.setXfer x).regions = s.regions := rfl
@[simp] theorem State.setXfer_snaps (s : State) (x : Xfer) : (s.setXfer x).snaps = s.snaps := rfl
@[simp] theorem State.setXfer_links (s : State) (x : Xfer) : (s.setXfer x).links = s.links := rfl
@[simp] theorem State.setXfer_tree (s : State) (x : Xfer) : (s.setXfer x).tree = s.tree := rfl
@[simp] theorem State.setXfer_parts (s : State) (x : Xfer) : (s.setXfer x).parts = s.parts := rfl
@[simp] theorem State.setXfer_srv (s : State) (x : Xfer) : (s.setXfer x).srv = s.srv := rfl
@[simp] theorem State.setXfer_eth (s : State) (x : Xfer) : (s.setXfer x).eth = s.eth := rfl
@[simp] theorem State.setXfer_nextXfer (s : State) (x : Xfer) : (s.setXfer x).nextXfer = s.nextXfer := rfl
@[simp] theorem State.setXfer_spl (s : State) (x : Xfer) : (s.setXfer x).spl = s.spl := rfl
@[simp] theorem State.setXfer_clk (s : State) (x : Xfer) : (s.setXfer x).clk = s.clk := rfl
@[simp] theorem State.setXfer_pwr (s : State) (x : Xfer) : (s.setXfer x).pwr = s.pwr := rfl
@[simp] theorem State.setXfer_thm (s : State) (x : Xfer) : (s.setXfer x).thm = s.thm := rfl
@[simp] theorem State.setXfer_boot (s : State) (x : Xfer) : (s.setXfer x).boot = s.boot := rfl
@[simp] theorem State.setXfer_evt (s : State) (x : Xfer) : (s.setXfer x).evt = s.evt := rfl
@[simp] theorem State.setXfer_draws (s : State) (x : Xfer) : (s.setXfer x).draws = s.draws := rfl

/-! `State.agentNote` -/
@[simp] theorem State.agentNote_pending (s : State) (r x : Nat) : (s.agentNote r x).pending = s.pending := rfl
@[simp] theorem State.agentNote_cores (s : State) (r x : Nat) : (s.agentNote r x).cores = s.cores := rfl
@[simp] theorem State.agentNote_vaults (s : State) (r x : Nat) : (s.agentNote r x).vaults = s.vaults := rfl
@[simp] theorem State.agentNote_clusters (s : State) (r x : Nat) : (s.agentNote r x).clusters = s.clusters := rfl
@[simp] theorem State.agentNote_snaps (s : State) (r x : Nat) : (s.agentNote r x).snaps = s.snaps := rfl
@[simp] theorem State.agentNote_links (s : State) (r x : Nat) : (s.agentNote r x).links = s.links := rfl
@[simp] theorem State.agentNote_tree (s : State) (r x : Nat) : (s.agentNote r x).tree = s.tree := rfl
@[simp] theorem State.agentNote_parts (s : State) (r x : Nat) : (s.agentNote r x).parts = s.parts := rfl
@[simp] theorem State.agentNote_srv (s : State) (r x : Nat) : (s.agentNote r x).srv = s.srv := rfl
@[simp] theorem State.agentNote_eth (s : State) (r x : Nat) : (s.agentNote r x).eth = s.eth := rfl
@[simp] theorem State.agentNote_xfers (s : State) (r x : Nat) : (s.agentNote r x).xfers = s.xfers := rfl
@[simp] theorem State.agentNote_nextXfer (s : State) (r x : Nat) : (s.agentNote r x).nextXfer = s.nextXfer := rfl
@[simp] theorem State.agentNote_spl (s : State) (r x : Nat) : (s.agentNote r x).spl = s.spl := rfl
@[simp] theorem State.agentNote_clk (s : State) (r x : Nat) : (s.agentNote r x).clk = s.clk := rfl
@[simp] theorem State.agentNote_pwr (s : State) (r x : Nat) : (s.agentNote r x).pwr = s.pwr := rfl
@[simp] theorem State.agentNote_thm (s : State) (r x : Nat) : (s.agentNote r x).thm = s.thm := rfl
@[simp] theorem State.agentNote_boot (s : State) (r x : Nat) : (s.agentNote r x).boot = s.boot := rfl
@[simp] theorem State.agentNote_evt (s : State) (r x : Nat) : (s.agentNote r x).evt = s.evt := rfl
@[simp] theorem State.agentNote_draws (s : State) (r x : Nat) : (s.agentNote r x).draws = s.draws := rfl

/-! `State.rxTake` -/
@[simp] theorem State.rxTake_pending (s : State) (i q : Nat) : (s.rxTake i q).pending = s.pending := rfl
@[simp] theorem State.rxTake_cores (s : State) (i q : Nat) : (s.rxTake i q).cores = s.cores := rfl
@[simp] theorem State.rxTake_vaults (s : State) (i q : Nat) : (s.rxTake i q).vaults = s.vaults := rfl
@[simp] theorem State.rxTake_clusters (s : State) (i q : Nat) : (s.rxTake i q).clusters = s.clusters := rfl
@[simp] theorem State.rxTake_regions (s : State) (i q : Nat) : (s.rxTake i q).regions = s.regions := rfl
@[simp] theorem State.rxTake_snaps (s : State) (i q : Nat) : (s.rxTake i q).snaps = s.snaps := rfl
@[simp] theorem State.rxTake_links (s : State) (i q : Nat) : (s.rxTake i q).links = s.links := rfl
@[simp] theorem State.rxTake_tree (s : State) (i q : Nat) : (s.rxTake i q).tree = s.tree := rfl
@[simp] theorem State.rxTake_parts (s : State) (i q : Nat) : (s.rxTake i q).parts = s.parts := rfl
@[simp] theorem State.rxTake_srv (s : State) (i q : Nat) : (s.rxTake i q).srv = s.srv := rfl
@[simp] theorem State.rxTake_xfers (s : State) (i q : Nat) : (s.rxTake i q).xfers = s.xfers := rfl
@[simp] theorem State.rxTake_nextXfer (s : State) (i q : Nat) : (s.rxTake i q).nextXfer = s.nextXfer := rfl
@[simp] theorem State.rxTake_spl (s : State) (i q : Nat) : (s.rxTake i q).spl = s.spl := rfl
@[simp] theorem State.rxTake_clk (s : State) (i q : Nat) : (s.rxTake i q).clk = s.clk := rfl
@[simp] theorem State.rxTake_pwr (s : State) (i q : Nat) : (s.rxTake i q).pwr = s.pwr := rfl
@[simp] theorem State.rxTake_thm (s : State) (i q : Nat) : (s.rxTake i q).thm = s.thm := rfl
@[simp] theorem State.rxTake_boot (s : State) (i q : Nat) : (s.rxTake i q).boot = s.boot := rfl
@[simp] theorem State.rxTake_evt (s : State) (i q : Nat) : (s.rxTake i q).evt = s.evt := rfl
@[simp] theorem State.rxTake_draws (s : State) (i q : Nat) : (s.rxTake i q).draws = s.draws := rfl

/-! `State.checkpoint` -/
@[simp] theorem State.checkpoint_pending (s : State) : (s.checkpoint).pending = s.pending := rfl
@[simp] theorem State.checkpoint_cores (s : State) : (s.checkpoint).cores = s.cores := rfl
@[simp] theorem State.checkpoint_vaults (s : State) : (s.checkpoint).vaults = s.vaults := rfl
@[simp] theorem State.checkpoint_clusters (s : State) : (s.checkpoint).clusters = s.clusters := rfl
@[simp] theorem State.checkpoint_regions (s : State) : (s.checkpoint).regions = s.regions := rfl
@[simp] theorem State.checkpoint_snaps (s : State) : (s.checkpoint).snaps = s.snaps := rfl
@[simp] theorem State.checkpoint_links (s : State) : (s.checkpoint).links = s.links := rfl
@[simp] theorem State.checkpoint_tree (s : State) : (s.checkpoint).tree = s.tree := rfl
@[simp] theorem State.checkpoint_parts (s : State) : (s.checkpoint).parts = s.parts := rfl
@[simp] theorem State.checkpoint_srv (s : State) : (s.checkpoint).srv = s.srv := rfl
@[simp] theorem State.checkpoint_eth (s : State) : (s.checkpoint).eth = s.eth := rfl
@[simp] theorem State.checkpoint_xfers (s : State) : (s.checkpoint).xfers = s.xfers := rfl
@[simp] theorem State.checkpoint_nextXfer (s : State) : (s.checkpoint).nextXfer = s.nextXfer := rfl
@[simp] theorem State.checkpoint_spl (s : State) : (s.checkpoint).spl = s.spl := rfl
@[simp] theorem State.checkpoint_pwr (s : State) : (s.checkpoint).pwr = s.pwr := rfl
@[simp] theorem State.checkpoint_thm (s : State) : (s.checkpoint).thm = s.thm := rfl
@[simp] theorem State.checkpoint_boot (s : State) : (s.checkpoint).boot = s.boot := rfl
@[simp] theorem State.checkpoint_evt (s : State) : (s.checkpoint).evt = s.evt := rfl
@[simp] theorem State.checkpoint_draws (s : State) : (s.checkpoint).draws = s.draws := rfl

/-! `State.tick` -/
@[simp] theorem State.tick_pending (s : State) : (s.tick).pending = s.pending := rfl
@[simp] theorem State.tick_cores (s : State) : (s.tick).cores = s.cores := rfl
@[simp] theorem State.tick_vaults (s : State) : (s.tick).vaults = s.vaults := rfl
@[simp] theorem State.tick_clusters (s : State) : (s.tick).clusters = s.clusters := rfl
@[simp] theorem State.tick_regions (s : State) : (s.tick).regions = s.regions := rfl
@[simp] theorem State.tick_snaps (s : State) : (s.tick).snaps = s.snaps := rfl
@[simp] theorem State.tick_links (s : State) : (s.tick).links = s.links := rfl
@[simp] theorem State.tick_tree (s : State) : (s.tick).tree = s.tree := rfl
@[simp] theorem State.tick_parts (s : State) : (s.tick).parts = s.parts := rfl
@[simp] theorem State.tick_srv (s : State) : (s.tick).srv = s.srv := rfl
@[simp] theorem State.tick_eth (s : State) : (s.tick).eth = s.eth := rfl
@[simp] theorem State.tick_xfers (s : State) : (s.tick).xfers = s.xfers := rfl
@[simp] theorem State.tick_nextXfer (s : State) : (s.tick).nextXfer = s.nextXfer := rfl
@[simp] theorem State.tick_spl (s : State) : (s.tick).spl = s.spl := rfl
@[simp] theorem State.tick_pwr (s : State) : (s.tick).pwr = s.pwr := rfl
@[simp] theorem State.tick_thm (s : State) : (s.tick).thm = s.thm := rfl
@[simp] theorem State.tick_boot (s : State) : (s.tick).boot = s.boot := rfl
@[simp] theorem State.tick_evt (s : State) : (s.tick).evt = s.evt := rfl
@[simp] theorem State.tick_draws (s : State) : (s.tick).draws = s.draws := rfl

/-! Reading what was written -/
theorem State.core_setCore (s : State) (i j : Nat) (k : Core) :
    (s.setCore i k).core j = if j = i then k else s.core j := tget_tset _ _ _ _ _
@[simp] theorem State.core_setCore_self (s : State) (i : Nat) (k : Core) : (s.setCore i k).core i = k := tget_tset_self _ _ _ _
theorem State.core_setCore_ne (s : State) {i j : Nat} (k : Core) (h : j ≠ i) : (s.setCore i k).core j = s.core j := tget_tset_ne _ _ _ h
theorem State.core_updCore (s : State) (i j : Nat) (f : Core → Core) :
    (s.updCore i f).core j = if j = i then f (s.core i) else s.core j := tget_tset _ _ _ _ _
@[simp] theorem State.core_updCore_self (s : State) (i : Nat) (f : Core → Core) : (s.updCore i f).core i = f (s.core i) := tget_tset_self _ _ _ _
theorem State.core_updCore_ne (s : State) {i j : Nat} (f : Core → Core) (h : j ≠ i) : (s.updCore i f).core j = s.core j := tget_tset_ne _ _ _ h
theorem State.vault_setVault (s : State) (i j : Nat) (v : Vault) :
    (s.setVault i v).vault j = if j = i then v else s.vault j := tget_tset _ _ _ _ _
@[simp] theorem State.vault_setVault_self (s : State) (i : Nat) (v : Vault) : (s.setVault i v).vault i = v := tget_tset_self _ _ _ _
theorem State.vault_setVault_ne (s : State) {i j : Nat} (v : Vault) (h : j ≠ i) : (s.setVault i v).vault j = s.vault j := tget_tset_ne _ _ _ h
theorem State.cluster_updCluster (s : State) (i j : Nat) (f : Cluster → Cluster) :
    (s.updCluster i f).cluster j = if j = i then f (s.cluster i) else s.cluster j := tget_tset _ _ _ _ _
@[simp] theorem State.cluster_updCluster_self (s : State) (i : Nat) (f : Cluster → Cluster) : (s.updCluster i f).cluster i = f (s.cluster i) := tget_tset_self _ _ _ _
theorem State.cluster_updCluster_ne (s : State) {i j : Nat} (f : Cluster → Cluster) (h : j ≠ i) : (s.updCluster i f).cluster j = s.cluster j := tget_tset_ne _ _ _ h
theorem State.region_updRegion (s : State) (i j : Nat) (f : Region → Region) :
    (s.updRegion i f).region j = if j = i then f (s.region i) else s.region j := tget_tset _ _ _ _ _
@[simp] theorem State.region_updRegion_self (s : State) (i : Nat) (f : Region → Region) : (s.updRegion i f).region i = f (s.region i) := tget_tset_self _ _ _ _
theorem State.region_updRegion_ne (s : State) {i j : Nat} (f : Region → Region) (h : j ≠ i) : (s.updRegion i f).region j = s.region j := tget_tset_ne _ _ _ h
theorem State.part_updPart (s : State) (i j : Nat) (f : Part → Part) :
    (s.updPart i f).part j = if j = i then f (s.part i) else s.part j := tget_tset _ _ _ _ _
@[simp] theorem State.part_updPart_self (s : State) (i : Nat) (f : Part → Part) : (s.updPart i f).part i = f (s.part i) := tget_tset_self _ _ _ _
theorem State.part_updPart_ne (s : State) {i j : Nat} (f : Part → Part) (h : j ≠ i) : (s.updPart i f).part j = s.part j := tget_tset_ne _ _ _ h
theorem State.session_setSession (s : State) (i j : Nat) (x : Session) :
    (s.setSession i x).session j = if j = i then some x else s.session j := by
  simp only [State.session, State.setSession]; exact tget_tset _ _ _ _ _
@[simp] theorem State.session_setSession_self (s : State) (i : Nat) (x : Session) : (s.setSession i x).session i = some x := by
  simp [State.session_setSession]
theorem State.session_setSession_ne (s : State) {i j : Nat} (x : Session) (h : j ≠ i) : (s.setSession i x).session j = s.session j := by
  simp [State.session_setSession, h]
theorem State.card_updCard (s : State) (i j : Nat) (f : Card → Card) :
    (s.updCard i f).card j = if j = i then f (s.card i) else s.card j := tget_tset _ _ _ _ _
@[simp] theorem State.card_updCard_self (s : State) (i : Nat) (f : Card → Card) : (s.updCard i f).card i = f (s.card i) := tget_tset_self _ _ _ _
theorem State.card_updCard_ne (s : State) {i j : Nat} (f : Card → Card) (h : j ≠ i) : (s.updCard i f).card j = s.card j := tget_tset_ne _ _ _ h
theorem State.req_updReq (s : State) (i j : Nat) (f : Request → Request) :
    (s.updReq i f).req j = if j = i then f (s.req i) else s.req j := tget_tset _ _ _ _ _
@[simp] theorem State.req_updReq_self (s : State) (i : Nat) (f : Request → Request) : (s.updReq i f).req i = f (s.req i) := tget_tset_self _ _ _ _
theorem State.req_updReq_ne (s : State) {i j : Nat} (f : Request → Request) (h : j ≠ i) : (s.updReq i f).req j = s.req j := tget_tset_ne _ _ _ h
theorem State.tenant_updTenant (s : State) (i j : Nat) (f : Tenant → Tenant) :
    (s.updTenant i f).tenant j = if j = i then f (s.tenant i) else s.tenant j := tget_tset _ _ _ _ _
@[simp] theorem State.tenant_updTenant_self (s : State) (i : Nat) (f : Tenant → Tenant) : (s.updTenant i f).tenant i = f (s.tenant i) := tget_tset_self _ _ _ _
theorem State.tenant_updTenant_ne (s : State) {i j : Nat} (f : Tenant → Tenant) (h : j ≠ i) : (s.updTenant i f).tenant j = s.tenant j := tget_tset_ne _ _ _ h
theorem State.comp_updComp (s : State) (i j : Nat) (f : Comp → Comp) :
    (s.updComp i f).comp j = if j = i then f (s.comp i) else s.comp j := tget_tset _ _ _ _ _
@[simp] theorem State.comp_updComp_self (s : State) (i : Nat) (f : Comp → Comp) : (s.updComp i f).comp i = f (s.comp i) := tget_tset_self _ _ _ _
theorem State.comp_updComp_ne (s : State) {i j : Nat} (f : Comp → Comp) (h : j ≠ i) : (s.updComp i f).comp j = s.comp j := tget_tset_ne _ _ _ h
theorem State.grp_updGrp (s : State) (i j : Nat) (f : Group → Group) :
    (s.updGrp i f).grp j = if j = i then f (s.grp i) else s.grp j := tget_tset _ _ _ _ _
@[simp] theorem State.grp_updGrp_self (s : State) (i : Nat) (f : Group → Group) : (s.updGrp i f).grp i = f (s.grp i) := tget_tset_self _ _ _ _
theorem State.grp_updGrp_ne (s : State) {i j : Nat} (f : Group → Group) (h : j ≠ i) : (s.updGrp i f).grp j = s.grp j := tget_tset_ne _ _ _ h

/-! Readers that an update does not reach -/
@[simp] theorem State.setCore_vault_of (s : State) (c : Nat) (k : Core) (j : Nat) : (s.setCore c k).vault j = s.vault j := rfl
@[simp] theorem State.setCore_cluster_of (s : State) (c : Nat) (k : Core) (j : Nat) : (s.setCore c k).cluster j = s.cluster j := rfl
@[simp] theorem State.setCore_region_of (s : State) (c : Nat) (k : Core) (j : Nat) : (s.setCore c k).region j = s.region j := rfl
@[simp] theorem State.setCore_part_of (s : State) (c : Nat) (k : Core) (j : Nat) : (s.setCore c k).part j = s.part j := rfl
@[simp] theorem State.setCore_session_of (s : State) (c : Nat) (k : Core) (j : Nat) : (s.setCore c k).session j = s.session j := rfl
@[simp] theorem State.setCore_card_of (s : State) (c : Nat) (k : Core) (j : Nat) : (s.setCore c k).card j = s.card j := rfl
@[simp] theorem State.setCore_req_of (s : State) (c : Nat) (k : Core) (j : Nat) : (s.setCore c k).req j = s.req j := rfl
@[simp] theorem State.setCore_tenant_of (s : State) (c : Nat) (k : Core) (j : Nat) : (s.setCore c k).tenant j = s.tenant j := rfl
@[simp] theorem State.setCore_comp_of (s : State) (c : Nat) (k : Core) (j : Nat) : (s.setCore c k).comp j = s.comp j := rfl
@[simp] theorem State.setCore_grp_of (s : State) (c : Nat) (k : Core) (j : Nat) : (s.setCore c k).grp j = s.grp j := rfl
@[simp] theorem State.updCore_vault_of (s : State) (c : Nat) (f : Core → Core) (j : Nat) : (s.updCore c f).vault j = s.vault j := rfl
@[simp] theorem State.updCore_cluster_of (s : State) (c : Nat) (f : Core → Core) (j : Nat) : (s.updCore c f).cluster j = s.cluster j := rfl
@[simp] theorem State.updCore_region_of (s : State) (c : Nat) (f : Core → Core) (j : Nat) : (s.updCore c f).region j = s.region j := rfl
@[simp] theorem State.updCore_part_of (s : State) (c : Nat) (f : Core → Core) (j : Nat) : (s.updCore c f).part j = s.part j := rfl
@[simp] theorem State.updCore_session_of (s : State) (c : Nat) (f : Core → Core) (j : Nat) : (s.updCore c f).session j = s.session j := rfl
@[simp] theorem State.updCore_card_of (s : State) (c : Nat) (f : Core → Core) (j : Nat) : (s.updCore c f).card j = s.card j := rfl
@[simp] theorem State.updCore_req_of (s : State) (c : Nat) (f : Core → Core) (j : Nat) : (s.updCore c f).req j = s.req j := rfl
@[simp] theorem State.updCore_tenant_of (s : State) (c : Nat) (f : Core → Core) (j : Nat) : (s.updCore c f).tenant j = s.tenant j := rfl
@[simp] theorem State.updCore_comp_of (s : State) (c : Nat) (f : Core → Core) (j : Nat) : (s.updCore c f).comp j = s.comp j := rfl
@[simp] theorem State.updCore_grp_of (s : State) (c : Nat) (f : Core → Core) (j : Nat) : (s.updCore c f).grp j = s.grp j := rfl
@[simp] theorem State.setVault_core_of (s : State) (c : Nat) (v : Vault) (j : Nat) : (s.setVault c v).core j = s.core j := rfl
@[simp] theorem State.setVault_cluster_of (s : State) (c : Nat) (v : Vault) (j : Nat) : (s.setVault c v).cluster j = s.cluster j := rfl
@[simp] theorem State.setVault_region_of (s : State) (c : Nat) (v : Vault) (j : Nat) : (s.setVault c v).region j = s.region j := rfl
@[simp] theorem State.setVault_part_of (s : State) (c : Nat) (v : Vault) (j : Nat) : (s.setVault c v).part j = s.part j := rfl
@[simp] theorem State.setVault_session_of (s : State) (c : Nat) (v : Vault) (j : Nat) : (s.setVault c v).session j = s.session j := rfl
@[simp] theorem State.setVault_card_of (s : State) (c : Nat) (v : Vault) (j : Nat) : (s.setVault c v).card j = s.card j := rfl
@[simp] theorem State.setVault_req_of (s : State) (c : Nat) (v : Vault) (j : Nat) : (s.setVault c v).req j = s.req j := rfl
@[simp] theorem State.setVault_tenant_of (s : State) (c : Nat) (v : Vault) (j : Nat) : (s.setVault c v).tenant j = s.tenant j := rfl
@[simp] theorem State.setVault_comp_of (s : State) (c : Nat) (v : Vault) (j : Nat) : (s.setVault c v).comp j = s.comp j := rfl
@[simp] theorem State.setVault_grp_of (s : State) (c : Nat) (v : Vault) (j : Nat) : (s.setVault c v).grp j = s.grp j := rfl
@[simp] theorem State.updCluster_core_of (s : State) (u : Nat) (f : Cluster → Cluster) (j : Nat) : (s.updCluster u f).core j = s.core j := rfl
@[simp] theorem State.updCluster_vault_of (s : State) (u : Nat) (f : Cluster → Cluster) (j : Nat) : (s.updCluster u f).vault j = s.vault j := rfl
@[simp] theorem State.updCluster_region_of (s : State) (u : Nat) (f : Cluster → Cluster) (j : Nat) : (s.updCluster u f).region j = s.region j := rfl
@[simp] theorem State.updCluster_part_of (s : State) (u : Nat) (f : Cluster → Cluster) (j : Nat) : (s.updCluster u f).part j = s.part j := rfl
@[simp] theorem State.updCluster_session_of (s : State) (u : Nat) (f : Cluster → Cluster) (j : Nat) : (s.updCluster u f).session j = s.session j := rfl
@[simp] theorem State.updCluster_card_of (s : State) (u : Nat) (f : Cluster → Cluster) (j : Nat) : (s.updCluster u f).card j = s.card j := rfl
@[simp] theorem State.updCluster_req_of (s : State) (u : Nat) (f : Cluster → Cluster) (j : Nat) : (s.updCluster u f).req j = s.req j := rfl
@[simp] theorem State.updCluster_tenant_of (s : State) (u : Nat) (f : Cluster → Cluster) (j : Nat) : (s.updCluster u f).tenant j = s.tenant j := rfl
@[simp] theorem State.updCluster_comp_of (s : State) (u : Nat) (f : Cluster → Cluster) (j : Nat) : (s.updCluster u f).comp j = s.comp j := rfl
@[simp] theorem State.updCluster_grp_of (s : State) (u : Nat) (f : Cluster → Cluster) (j : Nat) : (s.updCluster u f).grp j = s.grp j := rfl
@[simp] theorem State.updRegion_core_of (s : State) (r : Nat) (f : Region → Region) (j : Nat) : (s.updRegion r f).core j = s.core j := rfl
@[simp] theorem State.updRegion_vault_of (s : State) (r : Nat) (f : Region → Region) (j : Nat) : (s.updRegion r f).vault j = s.vault j := rfl
@[simp] theorem State.updRegion_cluster_of (s : State) (r : Nat) (f : Region → Region) (j : Nat) : (s.updRegion r f).cluster j = s.cluster j := rfl
@[simp] theorem State.updRegion_part_of (s : State) (r : Nat) (f : Region → Region) (j : Nat) : (s.updRegion r f).part j = s.part j := rfl
@[simp] theorem State.updRegion_session_of (s : State) (r : Nat) (f : Region → Region) (j : Nat) : (s.updRegion r f).session j = s.session j := rfl
@[simp] theorem State.updRegion_card_of (s : State) (r : Nat) (f : Region → Region) (j : Nat) : (s.updRegion r f).card j = s.card j := rfl
@[simp] theorem State.updRegion_req_of (s : State) (r : Nat) (f : Region → Region) (j : Nat) : (s.updRegion r f).req j = s.req j := rfl
@[simp] theorem State.updRegion_tenant_of (s : State) (r : Nat) (f : Region → Region) (j : Nat) : (s.updRegion r f).tenant j = s.tenant j := rfl
@[simp] theorem State.updRegion_comp_of (s : State) (r : Nat) (f : Region → Region) (j : Nat) : (s.updRegion r f).comp j = s.comp j := rfl
@[simp] theorem State.updRegion_grp_of (s : State) (r : Nat) (f : Region → Region) (j : Nat) : (s.updRegion r f).grp j = s.grp j := rfl
@[simp] theorem State.updNet_core_of (s : State) (r : Nat) (f : RNet → RNet) (j : Nat) : (s.updNet r f).core j = s.core j := rfl
@[simp] theorem State.updNet_vault_of (s : State) (r : Nat) (f : RNet → RNet) (j : Nat) : (s.updNet r f).vault j = s.vault j := rfl
@[simp] theorem State.updNet_cluster_of (s : State) (r : Nat) (f : RNet → RNet) (j : Nat) : (s.updNet r f).cluster j = s.cluster j := rfl
@[simp] theorem State.updNet_part_of (s : State) (r : Nat) (f : RNet → RNet) (j : Nat) : (s.updNet r f).part j = s.part j := rfl
@[simp] theorem State.updNet_session_of (s : State) (r : Nat) (f : RNet → RNet) (j : Nat) : (s.updNet r f).session j = s.session j := rfl
@[simp] theorem State.updNet_card_of (s : State) (r : Nat) (f : RNet → RNet) (j : Nat) : (s.updNet r f).card j = s.card j := rfl
@[simp] theorem State.updNet_req_of (s : State) (r : Nat) (f : RNet → RNet) (j : Nat) : (s.updNet r f).req j = s.req j := rfl
@[simp] theorem State.updNet_tenant_of (s : State) (r : Nat) (f : RNet → RNet) (j : Nat) : (s.updNet r f).tenant j = s.tenant j := rfl
@[simp] theorem State.updNet_comp_of (s : State) (r : Nat) (f : RNet → RNet) (j : Nat) : (s.updNet r f).comp j = s.comp j := rfl
@[simp] theorem State.updNet_grp_of (s : State) (r : Nat) (f : RNet → RNet) (j : Nat) : (s.updNet r f).grp j = s.grp j := rfl
@[simp] theorem State.updClk_core_of (s : State) (r : Nat) (f : RClk → RClk) (j : Nat) : (s.updClk r f).core j = s.core j := rfl
@[simp] theorem State.updClk_vault_of (s : State) (r : Nat) (f : RClk → RClk) (j : Nat) : (s.updClk r f).vault j = s.vault j := rfl
@[simp] theorem State.updClk_cluster_of (s : State) (r : Nat) (f : RClk → RClk) (j : Nat) : (s.updClk r f).cluster j = s.cluster j := rfl
@[simp] theorem State.updClk_part_of (s : State) (r : Nat) (f : RClk → RClk) (j : Nat) : (s.updClk r f).part j = s.part j := rfl
@[simp] theorem State.updClk_session_of (s : State) (r : Nat) (f : RClk → RClk) (j : Nat) : (s.updClk r f).session j = s.session j := rfl
@[simp] theorem State.updClk_card_of (s : State) (r : Nat) (f : RClk → RClk) (j : Nat) : (s.updClk r f).card j = s.card j := rfl
@[simp] theorem State.updClk_req_of (s : State) (r : Nat) (f : RClk → RClk) (j : Nat) : (s.updClk r f).req j = s.req j := rfl
@[simp] theorem State.updClk_tenant_of (s : State) (r : Nat) (f : RClk → RClk) (j : Nat) : (s.updClk r f).tenant j = s.tenant j := rfl
@[simp] theorem State.updClk_comp_of (s : State) (r : Nat) (f : RClk → RClk) (j : Nat) : (s.updClk r f).comp j = s.comp j := rfl
@[simp] theorem State.updClk_grp_of (s : State) (r : Nat) (f : RClk → RClk) (j : Nat) : (s.updClk r f).grp j = s.grp j := rfl
@[simp] theorem State.updPart_core_of (s : State) (p : Nat) (f : Part → Part) (j : Nat) : (s.updPart p f).core j = s.core j := rfl
@[simp] theorem State.updPart_vault_of (s : State) (p : Nat) (f : Part → Part) (j : Nat) : (s.updPart p f).vault j = s.vault j := rfl
@[simp] theorem State.updPart_cluster_of (s : State) (p : Nat) (f : Part → Part) (j : Nat) : (s.updPart p f).cluster j = s.cluster j := rfl
@[simp] theorem State.updPart_region_of (s : State) (p : Nat) (f : Part → Part) (j : Nat) : (s.updPart p f).region j = s.region j := rfl
@[simp] theorem State.updPart_session_of (s : State) (p : Nat) (f : Part → Part) (j : Nat) : (s.updPart p f).session j = s.session j := rfl
@[simp] theorem State.updPart_card_of (s : State) (p : Nat) (f : Part → Part) (j : Nat) : (s.updPart p f).card j = s.card j := rfl
@[simp] theorem State.updPart_req_of (s : State) (p : Nat) (f : Part → Part) (j : Nat) : (s.updPart p f).req j = s.req j := rfl
@[simp] theorem State.updPart_tenant_of (s : State) (p : Nat) (f : Part → Part) (j : Nat) : (s.updPart p f).tenant j = s.tenant j := rfl
@[simp] theorem State.updPart_comp_of (s : State) (p : Nat) (f : Part → Part) (j : Nat) : (s.updPart p f).comp j = s.comp j := rfl
@[simp] theorem State.updPart_grp_of (s : State) (p : Nat) (f : Part → Part) (j : Nat) : (s.updPart p f).grp j = s.grp j := rfl
@[simp] theorem State.setSession_core_of (s : State) (i : Nat) (h : Session) (j : Nat) : (s.setSession i h).core j = s.core j := rfl
@[simp] theorem State.setSession_vault_of (s : State) (i : Nat) (h : Session) (j : Nat) : (s.setSession i h).vault j = s.vault j := rfl
@[simp] theorem State.setSession_cluster_of (s : State) (i : Nat) (h : Session) (j : Nat) : (s.setSession i h).cluster j = s.cluster j := rfl
@[simp] theorem State.setSession_region_of (s : State) (i : Nat) (h : Session) (j : Nat) : (s.setSession i h).region j = s.region j := rfl
@[simp] theorem State.setSession_part_of (s : State) (i : Nat) (h : Session) (j : Nat) : (s.setSession i h).part j = s.part j := rfl
@[simp] theorem State.setSession_card_of (s : State) (i : Nat) (h : Session) (j : Nat) : (s.setSession i h).card j = s.card j := rfl
@[simp] theorem State.setSession_req_of (s : State) (i : Nat) (h : Session) (j : Nat) : (s.setSession i h).req j = s.req j := rfl
@[simp] theorem State.setSession_tenant_of (s : State) (i : Nat) (h : Session) (j : Nat) : (s.setSession i h).tenant j = s.tenant j := rfl
@[simp] theorem State.setSession_comp_of (s : State) (i : Nat) (h : Session) (j : Nat) : (s.setSession i h).comp j = s.comp j := rfl
@[simp] theorem State.setSession_grp_of (s : State) (i : Nat) (h : Session) (j : Nat) : (s.setSession i h).grp j = s.grp j := rfl
@[simp] theorem State.updCard_core_of (s : State) (c : Nat) (f : Card → Card) (j : Nat) : (s.updCard c f).core j = s.core j := rfl
@[simp] theorem State.updCard_vault_of (s : State) (c : Nat) (f : Card → Card) (j : Nat) : (s.updCard c f).vault j = s.vault j := rfl
@[simp] theorem State.updCard_cluster_of (s : State) (c : Nat) (f : Card → Card) (j : Nat) : (s.updCard c f).cluster j = s.cluster j := rfl
@[simp] theorem State.updCard_region_of (s : State) (c : Nat) (f : Card → Card) (j : Nat) : (s.updCard c f).region j = s.region j := rfl
@[simp] theorem State.updCard_part_of (s : State) (c : Nat) (f : Card → Card) (j : Nat) : (s.updCard c f).part j = s.part j := rfl
@[simp] theorem State.updCard_session_of (s : State) (c : Nat) (f : Card → Card) (j : Nat) : (s.updCard c f).session j = s.session j := rfl
@[simp] theorem State.updCard_req_of (s : State) (c : Nat) (f : Card → Card) (j : Nat) : (s.updCard c f).req j = s.req j := rfl
@[simp] theorem State.updCard_tenant_of (s : State) (c : Nat) (f : Card → Card) (j : Nat) : (s.updCard c f).tenant j = s.tenant j := rfl
@[simp] theorem State.updCard_comp_of (s : State) (c : Nat) (f : Card → Card) (j : Nat) : (s.updCard c f).comp j = s.comp j := rfl
@[simp] theorem State.updCard_grp_of (s : State) (c : Nat) (f : Card → Card) (j : Nat) : (s.updCard c f).grp j = s.grp j := rfl
@[simp] theorem State.updReq_core_of (s : State) (i : Nat) (f : Request → Request) (j : Nat) : (s.updReq i f).core j = s.core j := rfl
@[simp] theorem State.updReq_vault_of (s : State) (i : Nat) (f : Request → Request) (j : Nat) : (s.updReq i f).vault j = s.vault j := rfl
@[simp] theorem State.updReq_cluster_of (s : State) (i : Nat) (f : Request → Request) (j : Nat) : (s.updReq i f).cluster j = s.cluster j := rfl
@[simp] theorem State.updReq_region_of (s : State) (i : Nat) (f : Request → Request) (j : Nat) : (s.updReq i f).region j = s.region j := rfl
@[simp] theorem State.updReq_part_of (s : State) (i : Nat) (f : Request → Request) (j : Nat) : (s.updReq i f).part j = s.part j := rfl
@[simp] theorem State.updReq_session_of (s : State) (i : Nat) (f : Request → Request) (j : Nat) : (s.updReq i f).session j = s.session j := rfl
@[simp] theorem State.updReq_card_of (s : State) (i : Nat) (f : Request → Request) (j : Nat) : (s.updReq i f).card j = s.card j := rfl
@[simp] theorem State.updReq_comp_of (s : State) (i : Nat) (f : Request → Request) (j : Nat) : (s.updReq i f).comp j = s.comp j := rfl
@[simp] theorem State.updReq_grp_of (s : State) (i : Nat) (f : Request → Request) (j : Nat) : (s.updReq i f).grp j = s.grp j := rfl
@[simp] theorem State.updTenant_core_of (s : State) (t : Nat) (f : Tenant → Tenant) (j : Nat) : (s.updTenant t f).core j = s.core j := rfl
@[simp] theorem State.updTenant_vault_of (s : State) (t : Nat) (f : Tenant → Tenant) (j : Nat) : (s.updTenant t f).vault j = s.vault j := rfl
@[simp] theorem State.updTenant_cluster_of (s : State) (t : Nat) (f : Tenant → Tenant) (j : Nat) : (s.updTenant t f).cluster j = s.cluster j := rfl
@[simp] theorem State.updTenant_region_of (s : State) (t : Nat) (f : Tenant → Tenant) (j : Nat) : (s.updTenant t f).region j = s.region j := rfl
@[simp] theorem State.updTenant_part_of (s : State) (t : Nat) (f : Tenant → Tenant) (j : Nat) : (s.updTenant t f).part j = s.part j := rfl
@[simp] theorem State.updTenant_session_of (s : State) (t : Nat) (f : Tenant → Tenant) (j : Nat) : (s.updTenant t f).session j = s.session j := rfl
@[simp] theorem State.updTenant_card_of (s : State) (t : Nat) (f : Tenant → Tenant) (j : Nat) : (s.updTenant t f).card j = s.card j := rfl
@[simp] theorem State.updTenant_comp_of (s : State) (t : Nat) (f : Tenant → Tenant) (j : Nat) : (s.updTenant t f).comp j = s.comp j := rfl
@[simp] theorem State.updTenant_grp_of (s : State) (t : Nat) (f : Tenant → Tenant) (j : Nat) : (s.updTenant t f).grp j = s.grp j := rfl
@[simp] theorem State.updComp_core_of (s : State) (k : Nat) (f : Comp → Comp) (j : Nat) : (s.updComp k f).core j = s.core j := rfl
@[simp] theorem State.updComp_vault_of (s : State) (k : Nat) (f : Comp → Comp) (j : Nat) : (s.updComp k f).vault j = s.vault j := rfl
@[simp] theorem State.updComp_cluster_of (s : State) (k : Nat) (f : Comp → Comp) (j : Nat) : (s.updComp k f).cluster j = s.cluster j := rfl
@[simp] theorem State.updComp_region_of (s : State) (k : Nat) (f : Comp → Comp) (j : Nat) : (s.updComp k f).region j = s.region j := rfl
@[simp] theorem State.updComp_part_of (s : State) (k : Nat) (f : Comp → Comp) (j : Nat) : (s.updComp k f).part j = s.part j := rfl
@[simp] theorem State.updComp_session_of (s : State) (k : Nat) (f : Comp → Comp) (j : Nat) : (s.updComp k f).session j = s.session j := rfl
@[simp] theorem State.updComp_card_of (s : State) (k : Nat) (f : Comp → Comp) (j : Nat) : (s.updComp k f).card j = s.card j := rfl
@[simp] theorem State.updComp_req_of (s : State) (k : Nat) (f : Comp → Comp) (j : Nat) : (s.updComp k f).req j = s.req j := rfl
@[simp] theorem State.updComp_tenant_of (s : State) (k : Nat) (f : Comp → Comp) (j : Nat) : (s.updComp k f).tenant j = s.tenant j := rfl
@[simp] theorem State.updComp_grp_of (s : State) (k : Nat) (f : Comp → Comp) (j : Nat) : (s.updComp k f).grp j = s.grp j := rfl
@[simp] theorem State.updTree_core_of (s : State) (f : Tree → Tree) (j : Nat) : (s.updTree f).core j = s.core j := rfl
@[simp] theorem State.updTree_vault_of (s : State) (f : Tree → Tree) (j : Nat) : (s.updTree f).vault j = s.vault j := rfl
@[simp] theorem State.updTree_cluster_of (s : State) (f : Tree → Tree) (j : Nat) : (s.updTree f).cluster j = s.cluster j := rfl
@[simp] theorem State.updTree_region_of (s : State) (f : Tree → Tree) (j : Nat) : (s.updTree f).region j = s.region j := rfl
@[simp] theorem State.updTree_part_of (s : State) (f : Tree → Tree) (j : Nat) : (s.updTree f).part j = s.part j := rfl
@[simp] theorem State.updTree_session_of (s : State) (f : Tree → Tree) (j : Nat) : (s.updTree f).session j = s.session j := rfl
@[simp] theorem State.updTree_card_of (s : State) (f : Tree → Tree) (j : Nat) : (s.updTree f).card j = s.card j := rfl
@[simp] theorem State.updTree_req_of (s : State) (f : Tree → Tree) (j : Nat) : (s.updTree f).req j = s.req j := rfl
@[simp] theorem State.updTree_tenant_of (s : State) (f : Tree → Tree) (j : Nat) : (s.updTree f).tenant j = s.tenant j := rfl
@[simp] theorem State.updTree_comp_of (s : State) (f : Tree → Tree) (j : Nat) : (s.updTree f).comp j = s.comp j := rfl
@[simp] theorem State.updTree_grp_of (s : State) (f : Tree → Tree) (j : Nat) : (s.updTree f).grp j = s.grp j := rfl
@[simp] theorem State.updGrp_core_of (s : State) (g : Nat) (f : Group → Group) (j : Nat) : (s.updGrp g f).core j = s.core j := rfl
@[simp] theorem State.updGrp_vault_of (s : State) (g : Nat) (f : Group → Group) (j : Nat) : (s.updGrp g f).vault j = s.vault j := rfl
@[simp] theorem State.updGrp_cluster_of (s : State) (g : Nat) (f : Group → Group) (j : Nat) : (s.updGrp g f).cluster j = s.cluster j := rfl
@[simp] theorem State.updGrp_region_of (s : State) (g : Nat) (f : Group → Group) (j : Nat) : (s.updGrp g f).region j = s.region j := rfl
@[simp] theorem State.updGrp_part_of (s : State) (g : Nat) (f : Group → Group) (j : Nat) : (s.updGrp g f).part j = s.part j := rfl
@[simp] theorem State.updGrp_session_of (s : State) (g : Nat) (f : Group → Group) (j : Nat) : (s.updGrp g f).session j = s.session j := rfl
@[simp] theorem State.updGrp_card_of (s : State) (g : Nat) (f : Group → Group) (j : Nat) : (s.updGrp g f).card j = s.card j := rfl
@[simp] theorem State.updGrp_req_of (s : State) (g : Nat) (f : Group → Group) (j : Nat) : (s.updGrp g f).req j = s.req j := rfl
@[simp] theorem State.updGrp_tenant_of (s : State) (g : Nat) (f : Group → Group) (j : Nat) : (s.updGrp g f).tenant j = s.tenant j := rfl
@[simp] theorem State.updGrp_comp_of (s : State) (g : Nat) (f : Group → Group) (j : Nat) : (s.updGrp g f).comp j = s.comp j := rfl
@[simp] theorem State.updFeed_core_of (s : State) (b : Bool) (f : Feed → Feed) (j : Nat) : (s.updFeed b f).core j = s.core j := rfl
@[simp] theorem State.updFeed_vault_of (s : State) (b : Bool) (f : Feed → Feed) (j : Nat) : (s.updFeed b f).vault j = s.vault j := rfl
@[simp] theorem State.updFeed_cluster_of (s : State) (b : Bool) (f : Feed → Feed) (j : Nat) : (s.updFeed b f).cluster j = s.cluster j := rfl
@[simp] theorem State.updFeed_region_of (s : State) (b : Bool) (f : Feed → Feed) (j : Nat) : (s.updFeed b f).region j = s.region j := rfl
@[simp] theorem State.updFeed_part_of (s : State) (b : Bool) (f : Feed → Feed) (j : Nat) : (s.updFeed b f).part j = s.part j := rfl
@[simp] theorem State.updFeed_session_of (s : State) (b : Bool) (f : Feed → Feed) (j : Nat) : (s.updFeed b f).session j = s.session j := rfl
@[simp] theorem State.updFeed_card_of (s : State) (b : Bool) (f : Feed → Feed) (j : Nat) : (s.updFeed b f).card j = s.card j := rfl
@[simp] theorem State.updFeed_req_of (s : State) (b : Bool) (f : Feed → Feed) (j : Nat) : (s.updFeed b f).req j = s.req j := rfl
@[simp] theorem State.updFeed_tenant_of (s : State) (b : Bool) (f : Feed → Feed) (j : Nat) : (s.updFeed b f).tenant j = s.tenant j := rfl
@[simp] theorem State.updFeed_comp_of (s : State) (b : Bool) (f : Feed → Feed) (j : Nat) : (s.updFeed b f).comp j = s.comp j := rfl
@[simp] theorem State.setXfer_core_of (s : State) (x : Xfer) (j : Nat) : (s.setXfer x).core j = s.core j := rfl
@[simp] theorem State.setXfer_vault_of (s : State) (x : Xfer) (j : Nat) : (s.setXfer x).vault j = s.vault j := rfl
@[simp] theorem State.setXfer_cluster_of (s : State) (x : Xfer) (j : Nat) : (s.setXfer x).cluster j = s.cluster j := rfl
@[simp] theorem State.setXfer_region_of (s : State) (x : Xfer) (j : Nat) : (s.setXfer x).region j = s.region j := rfl
@[simp] theorem State.setXfer_part_of (s : State) (x : Xfer) (j : Nat) : (s.setXfer x).part j = s.part j := rfl
@[simp] theorem State.setXfer_session_of (s : State) (x : Xfer) (j : Nat) : (s.setXfer x).session j = s.session j := rfl
@[simp] theorem State.setXfer_card_of (s : State) (x : Xfer) (j : Nat) : (s.setXfer x).card j = s.card j := rfl
@[simp] theorem State.setXfer_req_of (s : State) (x : Xfer) (j : Nat) : (s.setXfer x).req j = s.req j := rfl
@[simp] theorem State.setXfer_tenant_of (s : State) (x : Xfer) (j : Nat) : (s.setXfer x).tenant j = s.tenant j := rfl
@[simp] theorem State.setXfer_comp_of (s : State) (x : Xfer) (j : Nat) : (s.setXfer x).comp j = s.comp j := rfl
@[simp] theorem State.setXfer_grp_of (s : State) (x : Xfer) (j : Nat) : (s.setXfer x).grp j = s.grp j := rfl
@[simp] theorem State.agentNote_core_of (s : State) (r x : Nat) (j : Nat) : (s.agentNote r x).core j = s.core j := rfl
@[simp] theorem State.agentNote_vault_of (s : State) (r x : Nat) (j : Nat) : (s.agentNote r x).vault j = s.vault j := rfl
@[simp] theorem State.agentNote_cluster_of (s : State) (r x : Nat) (j : Nat) : (s.agentNote r x).cluster j = s.cluster j := rfl
@[simp] theorem State.agentNote_part_of (s : State) (r x : Nat) (j : Nat) : (s.agentNote r x).part j = s.part j := rfl
@[simp] theorem State.agentNote_session_of (s : State) (r x : Nat) (j : Nat) : (s.agentNote r x).session j = s.session j := rfl
@[simp] theorem State.agentNote_card_of (s : State) (r x : Nat) (j : Nat) : (s.agentNote r x).card j = s.card j := rfl
@[simp] theorem State.agentNote_req_of (s : State) (r x : Nat) (j : Nat) : (s.agentNote r x).req j = s.req j := rfl
@[simp] theorem State.agentNote_tenant_of (s : State) (r x : Nat) (j : Nat) : (s.agentNote r x).tenant j = s.tenant j := rfl
@[simp] theorem State.agentNote_comp_of (s : State) (r x : Nat) (j : Nat) : (s.agentNote r x).comp j = s.comp j := rfl
@[simp] theorem State.agentNote_grp_of (s : State) (r x : Nat) (j : Nat) : (s.agentNote r x).grp j = s.grp j := rfl
@[simp] theorem State.rxTake_core_of (s : State) (i q : Nat) (j : Nat) : (s.rxTake i q).core j = s.core j := rfl
@[simp] theorem State.rxTake_vault_of (s : State) (i q : Nat) (j : Nat) : (s.rxTake i q).vault j = s.vault j := rfl
@[simp] theorem State.rxTake_cluster_of (s : State) (i q : Nat) (j : Nat) : (s.rxTake i q).cluster j = s.cluster j := rfl
@[simp] theorem State.rxTake_region_of (s : State) (i q : Nat) (j : Nat) : (s.rxTake i q).region j = s.region j := rfl
@[simp] theorem State.rxTake_part_of (s : State) (i q : Nat) (j : Nat) : (s.rxTake i q).part j = s.part j := rfl
@[simp] theorem State.rxTake_card_of (s : State) (i q : Nat) (j : Nat) : (s.rxTake i q).card j = s.card j := rfl
@[simp] theorem State.rxTake_req_of (s : State) (i q : Nat) (j : Nat) : (s.rxTake i q).req j = s.req j := rfl
@[simp] theorem State.rxTake_tenant_of (s : State) (i q : Nat) (j : Nat) : (s.rxTake i q).tenant j = s.tenant j := rfl
@[simp] theorem State.rxTake_comp_of (s : State) (i q : Nat) (j : Nat) : (s.rxTake i q).comp j = s.comp j := rfl
@[simp] theorem State.rxTake_grp_of (s : State) (i q : Nat) (j : Nat) : (s.rxTake i q).grp j = s.grp j := rfl
@[simp] theorem State.checkpoint_core_of (s : State) (j : Nat) : (s.checkpoint).core j = s.core j := rfl
@[simp] theorem State.checkpoint_vault_of (s : State) (j : Nat) : (s.checkpoint).vault j = s.vault j := rfl
@[simp] theorem State.checkpoint_cluster_of (s : State) (j : Nat) : (s.checkpoint).cluster j = s.cluster j := rfl
@[simp] theorem State.checkpoint_region_of (s : State) (j : Nat) : (s.checkpoint).region j = s.region j := rfl
@[simp] theorem State.checkpoint_part_of (s : State) (j : Nat) : (s.checkpoint).part j = s.part j := rfl
@[simp] theorem State.checkpoint_session_of (s : State) (j : Nat) : (s.checkpoint).session j = s.session j := rfl
@[simp] theorem State.checkpoint_card_of (s : State) (j : Nat) : (s.checkpoint).card j = s.card j := rfl
@[simp] theorem State.checkpoint_req_of (s : State) (j : Nat) : (s.checkpoint).req j = s.req j := rfl
@[simp] theorem State.checkpoint_tenant_of (s : State) (j : Nat) : (s.checkpoint).tenant j = s.tenant j := rfl
@[simp] theorem State.checkpoint_comp_of (s : State) (j : Nat) : (s.checkpoint).comp j = s.comp j := rfl
@[simp] theorem State.checkpoint_grp_of (s : State) (j : Nat) : (s.checkpoint).grp j = s.grp j := rfl
@[simp] theorem State.tick_core_of (s : State) (j : Nat) : (s.tick).core j = s.core j := rfl
@[simp] theorem State.tick_vault_of (s : State) (j : Nat) : (s.tick).vault j = s.vault j := rfl
@[simp] theorem State.tick_cluster_of (s : State) (j : Nat) : (s.tick).cluster j = s.cluster j := rfl
@[simp] theorem State.tick_region_of (s : State) (j : Nat) : (s.tick).region j = s.region j := rfl
@[simp] theorem State.tick_part_of (s : State) (j : Nat) : (s.tick).part j = s.part j := rfl
@[simp] theorem State.tick_session_of (s : State) (j : Nat) : (s.tick).session j = s.session j := rfl
@[simp] theorem State.tick_card_of (s : State) (j : Nat) : (s.tick).card j = s.card j := rfl
@[simp] theorem State.tick_req_of (s : State) (j : Nat) : (s.tick).req j = s.req j := rfl
@[simp] theorem State.tick_tenant_of (s : State) (j : Nat) : (s.tick).tenant j = s.tenant j := rfl
@[simp] theorem State.tick_comp_of (s : State) (j : Nat) : (s.tick).comp j = s.comp j := rfl
@[simp] theorem State.tick_grp_of (s : State) (j : Nat) : (s.tick).grp j = s.grp j := rfl

@[simp] theorem State.setCore_setCore (s : State) (c : Nat) (k l : Core) : (s.setCore c k).setCore c l = s.setCore c l := by
  simp [State.setCore]
@[simp] theorem State.updCore_updCore (s : State) (c : Nat) (f g : Core → Core) :
    (s.updCore c f).updCore c g = s.updCore c fun k => g (f k) := by simp [State.updCore, State.setCore, State.core]
@[simp] theorem State.updRegion_updRegion (s : State) (r : Nat) (f g : Region → Region) :
    (s.updRegion r f).updRegion r g = s.updRegion r fun k => g (f k) := by simp [State.updRegion, State.region]
@[simp] theorem State.updPart_updPart (s : State) (p : Nat) (f g : Part → Part) :
    (s.updPart p f).updPart p g = s.updPart p fun k => g (f k) := by simp [State.updPart, State.part]

end Sys2Proof.Machine
end

