-- ==== Sys2Proof/Laws/Events.lean ====
section
/-!
SUPPORT. What sending, raising an event, and an event of a core can change: one lemma each. A frame is an equation that
says which fields the new state does not share with the old.
-/
namespace Sys2Proof.Machine

/-- t differs from s at most in what its sessions hold. -/
def SessionFrame (s t : State) : Prop := t = { s with eth := { s.eth with sessions := t.eth.sessions } }
/-- t differs from s at most in its events and in what its sessions hold. -/
def EventFrame (s t : State) : Prop := t = { s with evt := t.evt, eth := { s.eth with sessions := t.eth.sessions } }
/-- t differs from s at most in cluster registers, partitions, events, sessions and the count of free values taken. -/
def CoreEventFrame (s t : State) : Prop :=
  t = { s with clusters := t.clusters, parts := t.parts, evt := t.evt, draws := t.draws, eth := { s.eth with sessions := t.eth.sessions } }

theorem SessionFrame.refl (s : State) : SessionFrame s s := rfl
theorem EventFrame.refl (s : State) : EventFrame s s := rfl
theorem CoreEventFrame.refl (s : State) : CoreEventFrame s s := rfl
theorem SessionFrame.trans {s t u : State} (h : SessionFrame s t) (g : SessionFrame t u) : SessionFrame s u := by
  unfold SessionFrame at *
  rw [h] at g
  exact g
theorem EventFrame.trans {s t u : State} (h : EventFrame s t) (g : EventFrame t u) : EventFrame s u := by
  unfold EventFrame at *
  rw [h] at g
  exact g
theorem CoreEventFrame.trans {s t u : State} (h : CoreEventFrame s t) (g : CoreEventFrame t u) : CoreEventFrame s u := by
  unfold CoreEventFrame at *
  rw [h] at g
  exact g
theorem SessionFrame.event {s t : State} (h : SessionFrame s t) : EventFrame s t := by
  unfold SessionFrame at h; unfold EventFrame; rw [h]
theorem EventFrame.core {s t : State} (h : EventFrame s t) : CoreEventFrame s t := by
  unfold EventFrame at h; unfold CoreEventFrame; rw [h]

/-- A fold of steps within a frame is within it. -/
theorem foldl_frame {β : Type} {R : State → State → Prop} (hr : ∀ s, R s s) (ht : ∀ s t u, R s t → R t u → R s u)
    (f : State → β → State) (l : List β) (h : ∀ s x, x ∈ l → R s (f s x)) (s : State) : R s (l.foldl f s) := by
  induction l generalizing s with
  | nil => exact hr s
  | cons x l ih => exact ht _ _ _ (h s x (by simp)) (ih (fun s y hy => h s y (by simp [hy])) _)

theorem State.setSession_frame (s : State) (i : Nat) (h : Session) : SessionFrame s (s.setSession i h) := rfl

/-- Sending changes the sessions alone. -/
theorem State.send_frame (s : State) (ses cls typ : Nat) (reply more : Bool) (corr status part : Nat) (body : List Byte) :
    SessionFrame s (s.send ses cls typ reply more corr status part body) := by
  unfold State.send
  split
  · exact .refl s
  · exact State.setSession_frame _ _ _
theorem State.push_frame (s : State) (ses cls typ part : Nat) (body : List Byte) : SessionFrame s (s.push ses cls typ part body) :=
  State.send_frame _ _ _ _ _ _ _ _ _ _
theorem State.reply_frame (s : State) (m : Msg) (cls typ status : Nat) (body : List Byte) :
    SessionFrame s (s.reply m cls typ status body) := State.send_frame _ _ _ _ _ _ _ _ _ _

theorem State.pushRecord_frame (s : State) (r : EvRec) : SessionFrame s (s.pushRecord r) := by
  unfold State.pushRecord
  refine foldl_frame SessionFrame.refl (fun _ _ _ => SessionFrame.trans) _ _ ?_ s
  rintro s ⟨i, h⟩ _
  cases h with
  | none => exact .refl s
  | some h =>
    dsimp only
    split
    · exact State.push_frame _ _ _ _ _ _
    · exact .refl s

theorem State.enterRing_frame (s : State) (r : EvRec) : EventFrame s (s.enterRing r) := by
  have h : EventFrame s { s with evt := { s.evt with
      ring := (if s.evt.ring.length < ringSize then s.evt.ring else s.evt.ring.drop 1) ++ [{ r with seq := s.evt.head }]
      head := (s.evt.head + 1) % 2 ^ 32 } } := rfl
  exact h.trans (State.pushRecord_frame _ _).event

/-- Raising an event changes the events and the sessions alone. -/
theorem State.raise_frame (s : State) (r : EvRec) : EventFrame s (s.raise r) := by
  unfold State.raise
  have h : EventFrame s { s with evt := { s.evt with counts := tupd s.evt.counts 0 r.cls fun n => min (n + 1) (2 ^ 64 - 1) } } := rfl
  dsimp only
  split
  · exact h
  · split
    · exact h.trans (State.enterRing_frame _ _)
    · split
      · split <;> rfl
      · split <;> rfl

theorem State.raiseAll_frame (s : State) (rs : List EvRec) : EventFrame s (s.raiseAll rs) :=
  foldl_frame EventFrame.refl (fun _ _ _ => EventFrame.trans) _ _ (fun s r _ => State.raise_frame s r) s

theorem State.notePartFault_frame (s : State) (p cls : Nat) : CoreEventFrame s (s.notePartFault p cls) := rfl
theorem State.noteStepFault_frame (s : State) (c cls : Nat) : CoreEventFrame s (s.noteStepFault c cls) := by
  unfold State.noteStepFault
  split
  · rfl
  · exact State.notePartFault_frame _ _ _
  · exact .refl s

theorem State.updCluster_frame (s : State) (u : Nat) (f : Cluster → Cluster) : CoreEventFrame s (s.updCluster u f) := rfl

theorem State.draw_frame (s : State) : CoreEventFrame s s.draw.1 := rfl

/-- An event of a core changes cluster registers, partitions, events and sessions alone. -/
theorem State.coreEvent_frame (s : State) (c cls : Nat) (sp : Fields) : CoreEventFrame s (s.coreEvent c cls sp) := by
  have h := State.updCluster_frame s (c / 72) fun u => u.note cls (c % 72)
  unfold State.coreEvent
  generalize s.updCluster (c / 72) (fun u => u.note cls (c % 72)) = u at h ⊢
  dsimp only
  have g := h.trans (State.raise_frame u (u.coreEv c cls sp)).core
  generalize u.raise (u.coreEv c cls sp) = v at g ⊢
  cases stepClass cls
  · exact g
  · exact g.trans (State.noteStepFault_frame v c cls)
theorem State.coreEventIf_frame (s : State) (b : Bool) (c cls : Nat) (sp : Fields) : CoreEventFrame s (s.coreEventIf b c cls sp) := by
  have h := State.updCluster_frame s (c / 72) fun u => u.note cls (c % 72)
  unfold State.coreEventIf
  have g := h.trans (State.raise_frame (s.updCluster (c / 72) fun u => u.note cls (c % 72)) (s.coreEv c cls sp)).core
  generalize (s.updCluster (c / 72) (fun u => u.note cls (c % 72))).raise (s.coreEv c cls sp) = v at g ⊢
  dsimp only
  cases b
  · exact g
  · exact g.trans (State.noteStepFault_frame v c cls)

/-- A debug hazard is at most an event of its core. -/
theorem State.hazard_frame (s : State) (c kind unit addr pcycle tail : Nat) (pc : Option Nat) :
    CoreEventFrame s (s.hazard c kind unit addr pcycle tail pc) := by
  unfold State.hazard
  split
  · exact .refl s
  · dsimp only
    split
    · exact State.coreEvent_frame _ _ _ _
    · exact .refl s

theorem State.addrFault_frame (s : State) (c cause addr unit : Nat) (pc : Option Nat) : CoreEventFrame s (s.addrFault c cause addr unit pc) := by
  unfold State.addrFault
  have h := State.coreEvent_frame s c 0x09 (sp [(0, 1, cause), (4, 2, pc.getD (s.core c).pc.toNat), (8, 4, addr)])
  generalize s.coreEvent c 0x09 (sp [(0, 1, cause), (4, 2, pc.getD (s.core c).pc.toNat), (8, 4, addr)]) = v at h ⊢
  dsimp only
  split
  · exact (h.trans (State.updCluster_frame _ _ _)).trans (State.hazard_frame _ _ _ _ _ _ _ _)
  · exact h

theorem State.readHazard_frame (s : State) (c unit addr len t : Nat) (pc : Option Nat) : CoreEventFrame s (s.readHazard c unit addr len t pc) := by
  unfold State.readHazard
  split
  · exact State.hazard_frame _ _ _ _ _ _ _ _
  · exact .refl s

/-- A load from the pads reports events at most. -/
theorem State.loadAt_frame (s : State) (c unit : Nat) (addrs : List Nat) (t : Nat) (pc : Option Nat) :
    CoreEventFrame s (s.loadAt c unit addrs t pc).1 := by
  unfold State.loadAt
  dsimp only
  split
  · exact State.readHazard_frame _ _ _ _ _ _ _
  · split
    · exact State.addrFault_frame s c 0 _ unit pc
    · exact State.addrFault_frame s c 1 _ unit pc

theorem State.padEvent_frame (s : State) (c cls pad off bank : Nat) : CoreEventFrame s (s.padEvent c cls pad off bank) :=
  (State.draw_frame s).trans (State.coreEvent_frame _ _ _ _)

theorem State.padCheck_frame (s : State) (c addr n : Nat) (es : List PadErr) : CoreEventFrame s (s.padCheck c addr n es) := by
  unfold State.padCheck
  refine foldl_frame CoreEventFrame.refl (fun _ _ _ => CoreEventFrame.trans) _ _ (fun s e _ => ?_) s
  dsimp only
  split
  · exact State.padEvent_frame _ _ _ _ _ _
  · exact .refl s

/-! ### What a frame leaves -/

theorem CoreEventFrame.cores {s t : State} (h : CoreEventFrame s t) : t.cores = s.cores := by unfold CoreEventFrame at h; rw [h]
theorem CoreEventFrame.core {s t : State} (h : CoreEventFrame s t) (c : Nat) : t.core c = s.core c := by simp [State.core, h.cores]
theorem CoreEventFrame.vaults {s t : State} (h : CoreEventFrame s t) : t.vaults = s.vaults := by unfold CoreEventFrame at h; rw [h]
theorem CoreEventFrame.regions {s t : State} (h : CoreEventFrame s t) : t.regions = s.regions := by unfold CoreEventFrame at h; rw [h]
theorem CoreEventFrame.boot {s t : State} (h : CoreEventFrame s t) : t.boot = s.boot := by unfold CoreEventFrame at h; rw [h]
theorem CoreEventFrame.pending {s t : State} (h : CoreEventFrame s t) : t.pending = s.pending := by unfold CoreEventFrame at h; rw [h]
theorem CoreEventFrame.tree {s t : State} (h : CoreEventFrame s t) : t.tree = s.tree := by unfold CoreEventFrame at h; rw [h]
theorem CoreEventFrame.clk {s t : State} (h : CoreEventFrame s t) : t.clk = s.clk := by unfold CoreEventFrame at h; rw [h]
theorem EventFrame.parts {s t : State} (h : EventFrame s t) : t.parts = s.parts := by unfold EventFrame at h; rw [h]
theorem EventFrame.part {s t : State} (h : EventFrame s t) (p : Nat) : t.part p = s.part p := by simp [State.part, h.parts]
theorem EventFrame.clusters {s t : State} (h : EventFrame s t) : t.clusters = s.clusters := by unfold EventFrame at h; rw [h]
theorem EventFrame.srv {s t : State} (h : EventFrame s t) : t.srv = s.srv := by unfold EventFrame at h; rw [h]
theorem EventFrame.boot {s t : State} (h : EventFrame s t) : t.boot = s.boot := h.core.boot
theorem EventFrame.regions {s t : State} (h : EventFrame s t) : t.regions = s.regions := h.core.regions
theorem EventFrame.region {s t : State} (h : EventFrame s t) (r : Nat) : t.region r = s.region r := by simp [State.region, h.regions]
theorem EventFrame.clk {s t : State} (h : EventFrame s t) : t.clk = s.clk := h.core.clk
theorem EventFrame.pwr {s t : State} (h : EventFrame s t) : t.pwr = s.pwr := by unfold EventFrame at h; rw [h]
theorem EventFrame.thm {s t : State} (h : EventFrame s t) : t.thm = s.thm := by unfold EventFrame at h; rw [h]
theorem EventFrame.spl {s t : State} (h : EventFrame s t) : t.spl = s.spl := by unfold EventFrame at h; rw [h]

end Sys2Proof.Machine
end

