-- ==== Sys2Proof/Laws/Issue.lean ====
section
/-!
SUPPORT. What the issue stage does with a word that a core issues: one lemma for a word that executes, one for a word that its
predicate skips, one for lane-wise words, and what is left alone.
-/
namespace Sys2Proof.Machine

theorem issue_runs {op c : Nat} {w : DWord} {s : State} (h : Issues op c w s) (reads writes : List Nat) (cycles lat unit : Nat) (lanes : Bool)
    (body : Nat → State → State × Bool) (skip : Nat → State → State) (flow : Core → Core)
    (hp : (lanes || ((s.core c).predBits w).getLsbD 0) = true) :
    issue op c w s reads writes cycles lat unit lanes body skip flow =
      (match body ((s.core c).startAt w (reads ++ writes) unit) (s.engCatch c ((s.core c).startAt w (reads ++ writes) unit)) with
        | (t, false) => .next (t.updCore c fun k =>
            { k with wait := .stall w, cycle := (s.core c).startAt w (reads ++ writes) unit, beat := true })
        | (t, true) => .next (t.updCore c fun k => flow
            { k.markRegs writes ((s.core c).startAt w (reads ++ writes) unit + lat) with
                cycle := (s.core c).startAt w (reads ++ writes) unit + cycles, beat := true })) := by
  unfold issue
  have hc := h.opcode
  rw [if_pos h.core, if_pos h.ready]
  rw [if_neg (by simp [Core.lateBy, h.planes]), if_neg (by simp [h.fetch])]
  simp only [h.parity, h.legal, h.loop, Bool.or_self, Bool.false_eq_true, if_false]
  rw [if_neg (by simp [hc])]
  simp only [hp, if_true]
  rfl

theorem issue_executes {op c : Nat} {w : DWord} {s : State} (h : Executes op c w s) (reads writes : List Nat) (cycles lat unit : Nat)
    (lanes : Bool) (body : Nat → State → State × Bool) (skip : Nat → State → State) (flow : Core → Core) :
    issue op c w s reads writes cycles lat unit lanes body skip flow =
      (match body ((s.core c).startAt w (reads ++ writes) unit) (s.engCatch c ((s.core c).startAt w (reads ++ writes) unit)) with
        | (t, false) => .next (t.updCore c fun k =>
            { k with wait := .stall w, cycle := (s.core c).startAt w (reads ++ writes) unit, beat := true })
        | (t, true) => .next (t.updCore c fun k => flow
            { k.markRegs writes ((s.core c).startAt w (reads ++ writes) unit + lat) with
                cycle := (s.core c).startAt w (reads ++ writes) unit + cycles, beat := true })) :=
  issue_runs h.1 reads writes cycles lat unit lanes body skip flow (by simp [h.2])

/-- A word that executes and is not held up: its body acts, its results are marked, and the core goes on as `flow` says. -/
theorem issue_done {op c : Nat} {w : DWord} {s : State} (h : Executes op c w s) {reads writes : List Nat} {cycles lat unit : Nat}
    {lanes : Bool} {body : Nat → State → State × Bool} {skip : Nat → State → State} {flow : Core → Core}
    (hb : (body ((s.core c).startAt w (reads ++ writes) unit) (s.engCatch c ((s.core c).startAt w (reads ++ writes) unit))).2 = true) :
    issue op c w s reads writes cycles lat unit lanes body skip flow =
      .next ((body ((s.core c).startAt w (reads ++ writes) unit) (s.engCatch c ((s.core c).startAt w (reads ++ writes) unit))).1.updCore c
        fun k => flow { k.markRegs writes ((s.core c).startAt w (reads ++ writes) unit + lat) with
          cycle := (s.core c).startAt w (reads ++ writes) unit + cycles, beat := true }) := by
  rw [issue_executes h]
  generalize body _ _ = x at hb ⊢
  obtain ⟨t, b⟩ := x
  simp only at hb
  subst hb
  rfl

/-- A word whose unit holds it up: the core stalls at it (R82). -/
theorem issue_stalls {op c : Nat} {w : DWord} {s : State} (h : Executes op c w s) {reads writes : List Nat} {cycles lat unit : Nat}
    {lanes : Bool} {body : Nat → State → State × Bool} {skip : Nat → State → State} {flow : Core → Core}
    (hb : (body ((s.core c).startAt w (reads ++ writes) unit) (s.engCatch c ((s.core c).startAt w (reads ++ writes) unit))).2 = false) :
    issue op c w s reads writes cycles lat unit lanes body skip flow =
      .next ((body ((s.core c).startAt w (reads ++ writes) unit) (s.engCatch c ((s.core c).startAt w (reads ++ writes) unit))).1.updCore c
        fun k => { k with wait := .stall w, cycle := (s.core c).startAt w (reads ++ writes) unit, beat := true }) := by
  rw [issue_executes h]
  generalize body _ _ = x at hb ⊢
  obtain ⟨t, b⟩ := x
  simp only at hb
  subst hb
  rfl

/-- As `issue_done`, for a claim about the next state. -/
theorem issue_next {op c : Nat} {w : DWord} {s : State} (h : Executes op c w s) {reads writes : List Nat} {cycles lat unit : Nat}
    {lanes : Bool} {body : Nat → State → State × Bool} {skip : Nat → State → State} {flow : Core → Core} {P : State → Prop}
    (hb : (body ((s.core c).startAt w (reads ++ writes) unit) (s.engCatch c ((s.core c).startAt w (reads ++ writes) unit))).2 = true)
    (hP : P ((body ((s.core c).startAt w (reads ++ writes) unit) (s.engCatch c ((s.core c).startAt w (reads ++ writes) unit))).1.updCore c
        fun k => flow { k.markRegs writes ((s.core c).startAt w (reads ++ writes) unit + lat) with
          cycle := (s.core c).startAt w (reads ++ writes) unit + cycles, beat := true })) :
    ∃ t, issue op c w s reads writes cycles lat unit lanes body skip flow = .next t ∧ P t :=
  ⟨_, issue_done h hb, hP⟩

theorem State.updCore_only (s : State) (c : Nat) (f : Core → Core) : OnlyCore c s (s.updCore c f) :=
  ⟨fun _ h => State.core_updCore_ne s f h, fun _ => rfl, rfl⟩

/-- A further change of core c alone. -/
theorem OnlyCore.updCore {c : Nat} {s t : State} (h : OnlyCore c s t) (f : Core → Core) : OnlyCore c s (t.updCore c f) := by
  obtain ⟨h1, h2, h3⟩ := h
  refine ⟨fun d hd => (State.core_updCore_ne t f hd).trans (h1 d hd), fun hn => ?_, ?_⟩
  · have e := h2 hn
    generalize hu : t.updCore c f = u
    have : u = { t with cores := u.cores } := by rw [← hu]; rfl
    rw [this, e]
  · generalize hu : t.updCore c f = u
    have : u = { t with cores := u.cores } := by rw [← hu]; rfl
    rw [this, h3]

/-- Outside a DEBUG partition the hazard detector does nothing. -/
theorem State.hazard_none {s : State} {c : Nat} (h : ¬ s.debugCore c) (kind unit addr pcycle tail : Nat) (pc : Option Nat) :
    s.hazard c kind unit addr pcycle tail pc = s := by
  unfold State.hazard
  split
  · rfl
  · next p hp =>
    have : (s.part p).debug = false := by
      cases hd : (s.part p).debug with
      | false => rfl
      | true => exact absurd ⟨p, hp, hd⟩ h
    simp [this]

theorem State.readHazard_none {s : State} {c : Nat} (h : ¬ s.debugCore c) (unit addr len t : Nat) (pc : Option Nat) :
    s.readHazard c unit addr len t pc = s := by
  unfold State.readHazard
  split
  · exact State.hazard_none h _ _ _ _ _ _
  · rfl

theorem foldl_id {α β : Type} (f : α → β → α) (l : List β) (s : α) (h : ∀ x ∈ l, f s x = s) : l.foldl f s = s := by
  induction l with
  | nil => rfl
  | cons x l ih =>
    rw [List.foldl_cons, h x (by simp)]
    exact ih fun y hy => h y (by simp [hy])

theorem State.latchHazards_frame (s : State) (c t : Nat) (o : EngOp) : CoreEventFrame s (s.latchHazards c t o) := by
  unfold State.latchHazards
  refine foldl_frame CoreEventFrame.refl (fun _ _ _ => CoreEventFrame.trans) _ _ (fun s v _ => ?_) s
  split
  · exact State.readHazard_frame _ _ _ _ _ _ _
  · exact .refl s
theorem State.latchHazards_none {s : State} {c : Nat} (h : ¬ s.debugCore c) (t : Nat) (o : EngOp) : s.latchHazards c t o = s := by
  unfold State.latchHazards
  refine foldl_id _ _ _ fun v _ => ?_
  split
  · exact State.readHazard_none h _ _ _ _ _
  · rfl

/-- The engine's latches: the core's operations latch, and nothing else of any core changes (R31). -/
theorem State.engCatch_core (s : State) (c t : Nat) :
    (s.engCatch c t).core c = { s.core c with eng := (s.core c).eng.map (latchOp (s.core c) (s.cluster (c / 72)).banks t) } := by
  unfold State.engCatch
  have h : CoreEventFrame s ((s.core c).eng.foldl (fun s o => s.latchHazards c t o) s) :=
    foldl_frame CoreEventFrame.refl (fun _ _ _ => CoreEventFrame.trans) _ _ (fun s o _ => State.latchHazards_frame s c t o) s
  rw [State.core_updCore_self, h.core]

theorem State.engCatch_only (s : State) (c t : Nat) : OnlyCore c s (s.engCatch c t) := by
  unfold State.engCatch
  refine OnlyCore.updCore ?_ _
  have h : CoreEventFrame s ((s.core c).eng.foldl (fun s o => s.latchHazards c t o) s) :=
    foldl_frame CoreEventFrame.refl (fun _ _ _ => CoreEventFrame.trans) _ _ (fun s o _ => State.latchHazards_frame s c t o) s
  refine ⟨fun d _ => h.core d, fun hn => ?_, ?_⟩
  · rw [foldl_id _ _ _ fun o _ => State.latchHazards_none hn t o]
  · unfold CoreEventFrame at h
    generalize (s.core c).eng.foldl (fun s o => s.latchHazards c t o) s = u at h
    rw [h]

/-- A word that its predicate skips moves on and reserves what `skip` says (R83). -/
theorem issue_skips {op c : Nat} {w : DWord} {s : State} (h : Issues op c w s) (reads writes : List Nat) (cycles lat unit : Nat)
    (body : Nat → State → State × Bool) (skip : Nat → State → State) (flow : Core → Core)
    (hp : ((s.core c).predBits w).getLsbD 0 = false) :
    issue op c w s reads writes cycles lat unit false body skip flow =
      .next ((skip ((s.core c).startAt w (reads ++ writes) unit) (s.engCatch c ((s.core c).startAt w (reads ++ writes) unit))).updCore c
        fun k => ({ k.markRegs writes ((s.core c).startAt w (reads ++ writes) unit + lat) with
          cycle := (s.core c).startAt w (reads ++ writes) unit + cycles, beat := true }).advance) := by
  unfold issue
  have hc := h.opcode
  rw [if_pos h.core, if_pos h.ready]
  rw [if_neg (by simp [Core.lateBy, h.planes]), if_neg (by simp [h.fetch])]
  simp only [h.parity, h.legal, h.loop, Bool.or_self, Bool.false_eq_true, if_false]
  rw [if_neg (by simp [hc])]
  simp only [hp, Bool.or_self, Bool.false_eq_true, if_false]
  rfl

/-- A register instruction that executes: what the engine has latched, then the core changed by `f`, and it goes on. -/
theorem issueCore_runs {op c : Nat} {w : DWord} {s : State} (h : Issues op c w s) (reads writes : List Nat) (cycles lat : Nat) (lanes : Bool)
    (f : Core → Core) (hp : (lanes || ((s.core c).predBits w).getLsbD 0) = true) :
    issueCore op c w s reads writes cycles lat lanes f =
      .next (((s.engCatch c ((s.core c).startAt w (reads ++ writes) 0)).updCore c f).updCore c fun k => Core.advance
        { k.markRegs writes ((s.core c).startAt w (reads ++ writes) 0 + lat) with
          cycle := (s.core c).startAt w (reads ++ writes) 0 + cycles, beat := true }) := by
  unfold issueCore
  rw [issue_runs h _ _ _ _ _ _ _ _ _ hp]

/-! ### The core's state word by word -/

@[simp] theorem Core.advance_pc (k : Core) : k.advance.pc = BitVec.ofNat 12 ((loopNext k.pc.toNat k.loops).1.getD (k.pc.toNat + 1)) := rfl
@[simp] theorem Core.advance_loops (k : Core) : k.advance.loops = (loopNext k.pc.toNat k.loops).2 := rfl
theorem Core.advance_frame (k : Core) : k.advance = { k with pc := k.advance.pc, loops := k.advance.loops } := rfl
theorem Core.markRegs_frame (k : Core) (rs : List Nat) (t : Nat) : k.markRegs rs t = { k with score := (k.markRegs rs t).score } := rfl

theorem Core.sreg_setS (k : Core) (n m : Nat) (x : Word) :
    (k.setS n x).sreg m = if m % 32 = 0 then 0 else if m % 32 = n % 32 then x else k.sreg m := by
  unfold Core.sreg Core.setS
  by_cases hm : m % 32 = 0
  · simp [hm]
  · by_cases hn : n % 32 = 0
    · simp [hm, hn]
    · simp [hm, hn, tget_tset]

theorem Core.areg_setA (k : Core) (n m : Nat) (x : BitVec 20) : (k.setA n x).areg m = if m % 16 = n % 16 then x else k.areg m := by
  simp [Core.areg, Core.setA, tget_tset]

/-- Reading a register after a write: s0 reads 0, an address register keeps bits [19:0] (R76). -/
theorem Core.spec_setSpec (k : Core) (r q : Nat) (x : Word) (hr : r < 48) (hq : q < 48) :
    (k.setSpec r x).spec q =
      if q = r then (if r = 0 then 0 else if r < 32 then x else BitVec.ofNat 32 (x.toNat % 2 ^ 20)) else k.spec q := by
  unfold Core.setSpec Core.spec
  by_cases h1 : r < 32 <;> by_cases h2 : q < 32
  · simp only [h1, h2, if_true, Core.sreg_setS]
    have e1 : r % 32 = r := Nat.mod_eq_of_lt h1
    have e2 : q % 32 = q := Nat.mod_eq_of_lt h2
    rw [e1, e2]
    by_cases hqr : q = r
    · subst hqr; simp
    · simp only [hqr, if_false]
      by_cases hq0 : q = 0
      · simp [hq0, Core.sreg]
      · simp [hq0]
  · have : q ≠ r := by omega
    simp only [h1, h2, this, if_true, if_false, Core.setS]
    split <;> rfl
  · have : q ≠ r := by omega
    simp [h1, h2, this, Core.setA, Core.sreg]
  · simp only [h1, h2, if_false, Core.areg_setA]
    have e1 : (r - 32) % 16 = r - 32 := Nat.mod_eq_of_lt (by omega)
    have e2 : (q - 32) % 16 = q - 32 := Nat.mod_eq_of_lt (by omega)
    rw [e1, e2]
    by_cases hqr : q = r
    · subst hqr
      have : q ≠ 0 := by omega
      simp [this]
    · have : q - 32 ≠ r - 32 := by omega
      simp [hqr, this]

theorem Core.vlane_setLane (k : Core) (r l q m : Nat) (x : Word) (hl : l < 16) (hm : m < 16) :
    (k.setLane r l x).vlane q m = if q % 32 = r % 32 ∧ m = l then x else k.vlane q m := by
  simp only [Core.vlane, Core.setLane, tget_tset]
  congr 1
  simp only [eq_iff_iff]
  constructor
  · intro h; constructor <;> omega
  · rintro ⟨h, rfl⟩; rw [h]

theorem Core.preg_setP (k : Core) (n m : Nat) (x : BitVec 16) :
    (k.setP n x).preg m = if m % 8 = 0 then 0xFFFF else if m % 8 = n % 8 then x else k.preg m := by
  unfold Core.preg Core.setP
  by_cases hm : m % 8 = 0
  · simp [hm]
  · by_cases hn : n % 8 = 0
    · simp [hm, hn]
    · simp [hm, hn, tget_tset]

/-- The lanes that a masked write leaves, and those it writes. -/
theorem Core.vlane_setLanes (k : Core) (r : Nat) (m : BitVec 16) (f : Nat → Word) (q l : Nat) (hl : l < 16) :
    (k.setLanes r m f).vlane q l = if q % 32 = r % 32 ∧ m.getLsbD l = true then f l else k.vlane q l := by
  have key : ∀ (ls : List Nat) (k : Core), (∀ x ∈ ls, x < 16) → ls.Nodup →
      (ls.foldl (fun k l => if m.getLsbD l then k.setLane r l (f l) else k) k).vlane q l =
        if l ∈ ls ∧ q % 32 = r % 32 ∧ m.getLsbD l = true then f l else k.vlane q l := by
    intro ls
    induction ls with
    | nil => intro k _ _; simp
    | cons a ls ih =>
      intro k h hn
      have hn := List.nodup_cons.1 hn
      simp only [List.foldl_cons]
      rw [ih _ (fun x hx => h x (by simp [hx])) hn.2]
      by_cases ha : l = a
      · subst ha
        have : l ∉ ls := hn.1
        simp only [this, false_and, if_false, List.mem_cons, true_or, true_and]
        cases hm : m.getLsbD l
        · simp
        · simp only [if_true]
          rw [Core.vlane_setLane _ _ _ _ _ _ hl hl]
          simp
      · have : (if m.getLsbD a then k.setLane r a (f a) else k).vlane q l = k.vlane q l := by
          split
          · rw [Core.vlane_setLane _ _ _ _ _ _ (h a (by simp)) hl]
            simp [ha]
          · rfl
        rw [this]
        simp [ha]
  unfold Core.setLanes
  rw [key _ _ (fun x hx => List.mem_range.1 hx) List.nodup_range]
  simp [hl]

end Sys2Proof.Machine
end

