-- ==== Sys2Proof/Laws/Messages.lean ====
section
/-!
SUPPORT. What the processing of a delivered message does, class by class, and that a reply is the session's last message.
-/
namespace Sys2Proof.Machine

theorem Session.left_tx (h : Session) (n : Nat) : (h.left n).tx = h.tx := by
  unfold Session.left; split <;> rfl

/-- A message sent last is last, whatever the window lets go. -/
theorem Session.fill_last (h : Session) (now : Nat) (m : OutMsg) (hl : h.tx.getLast? = some m) :
    ∃ o, (h.fill now).tx.getLast? = some o ∧ o.seq = m.seq ∧ o.cls = m.cls ∧ o.typ = m.typ ∧ o.reply = m.reply ∧ o.more = m.more
      ∧ o.corr = m.corr ∧ o.status = m.status ∧ o.part = m.part ∧ o.body = m.body := by
  unfold Session.fill
  dsimp only
  rw [List.getLast?_map, List.getLast?_zipIdx, hl]
  simp only [Option.map_some]
  refine ⟨_, rfl, ?_⟩
  split <;> simp

/-- A reply in an open session is its last message. -/
theorem State.reply_answered {s : State} {m : Msg} {h : Session} (hs : s.session m.ses = some h) (cls typ status : Nat) (body : List Byte) :
    Answered (s.reply m cls typ status body) m cls typ status body := by
  unfold State.reply State.send
  rw [hs]
  dsimp only
  obtain ⟨o, ho, _, h1, h2, h3, _, h4, h5, h6, h7⟩ := Session.fill_last
    { h with tx := h.tx ++ [{ seq := h.nextOut, cls := cls, typ := typ, reply := true, more := false, corr := m.seq, status := status
                              part := m.part, body := body, sends := 0, first := 0, due := 0, sent := false }]
             nextOut := seqNext h.nextOut } s.clk.wtime _ (by simp; rfl)
  refine ⟨_, o, State.session_setSession_self _ _ _, ho, ?_⟩
  simp at h1 h2 h3 h4 h5 h6 h7
  exact ⟨h3, h1, h2, h4, h5, h6, h7⟩

/-- A delivered, well-formed message acts, and its reply goes out. -/
theorem State.onMsg_runs {s : State} {m : Msg} {cls typ len : Nat} {h : Session} (d : Delivered m cls typ len s h) {ok part : Bool}
    (hok : ok = true) (hp : part = true → m.part ≤ 15) (f : Session → State → State × Option Reply) :
    s.onMsg m cls typ len ok part f =
      match f h (s.taken m h) with
        | (t, some r) => .next (t.reply m cls typ r.1 r.2)
        | (t, none) => .next t := by
  unfold State.onMsg
  rw [d.session]
  dsimp only
  have hf := d.first
  cases hr : h.ready with
  | nil => simp [hr] at hf
  | cons x rest =>
    rw [hr] at hf
    simp only [List.head?_cons, Option.some.injEq] at hf
    subst hf
    have hb : ¬(m.len ≠ len ∨ m.rsv ≠ 0 ∨ (!ok) = true ∨ part = true ∧ m.part > 15) := by
      simp only [d.length, d.reserved, hok, ne_eq, not_true_eq_false, Bool.not_true, Bool.false_eq_true, false_or, not_and]
      intro h15
      have := hp h15
      omega
    simp only [ne_eq, not_true_eq_false, if_false, d.allowed, Bool.not_true, Bool.false_eq_true]
    rw [if_neg hb]
    have ha : awayOf rest = 0 := by
      have := d.behind
      rwa [hr] at this
    simp only [State.taken, hr, List.tail_cons, ha, State.turnAway] <;> rfl

/-- As `onMsg_runs`, for a message about a request that exists and that the session may name. -/
theorem State.onReq_runs {s : State} {m : Msg} {typ len id i : Nat} {h : Session} (d : Delivered m 4 typ len s h) {ok : Bool}
    (hok : ok = true) (hp : m.part ≤ 15) (hd : s.doldrums = false) (hi : s.findReq id = some i)
    (ht : h.role = 0 → (s.req i).par.tenant = h.tenant) (f : Session → Nat → State → State × Reply) :
    s.onReq m typ len ok id f =
      .next ((f h i (s.taken m h)).1.reply m 4 typ (f h i (s.taken m h)).2.1 (f h i (s.taken m h)).2.2) := by
  unfold State.onReq
  rw [State.onMsg_runs d hok (fun _ => hp)]
  have h1 : (s.taken m h).doldrums = false := hd
  have h2 : (s.taken m h).findReq id = some i := hi
  have h3 : (s.taken m h).req i = s.req i := rfl
  simp only [h1, h2, h3, Bool.false_eq_true, if_false]
  rw [if_neg (by rintro ⟨a, b⟩; exact b (ht a))]

/-- As `onMsg_runs`, for a PART message outside Doldrums mode. -/
theorem State.onPart_runs {s : State} {m : Msg} {typ len : Nat} {h : Session} (d : Delivered m 3 typ len s h) {ok : Bool}
    (hok : ok = true) (hp : m.part ≤ 15) (hd : s.doldrums = false) (f : Session → State → State × Reply) :
    s.onPart m typ len ok f =
      .next ((f h (s.taken m h)).1.reply m 3 typ (f h (s.taken m h)).2.1 (f h (s.taken m h)).2.2) := by
  unfold State.onPart
  rw [State.onMsg_runs d hok (fun _ => hp)]
  have h1 : (s.taken m h).doldrums = false := hd
  simp only [h1, Bool.false_eq_true, if_false]

/-- A REG_WRITE of one word: the register's own effect, and the reply. -/
theorem State.onRegWrite_runs {s : State} {m : Msg} {addr : Nat} {h : Session} (d : Delivered m 1 2 12 s h)
    (f : Session → State → State × Nat) :
    s.onRegWrite m addr f =
      .next ((f h (s.taken m h)).1.reply m 1 2 (f h (s.taken m h)).2
        (beBytes 4 addr ++ beBytes 2 (if (f h (s.taken m h)).2 = stOk then 1 else 0) ++ beBytes 2 0)) := by
  unfold State.onRegWrite
  rw [State.onMsg_runs d rfl (by simp)]

/-- Taking a message changes the sessions and the receive buffer alone. -/
theorem State.taken_frame (s : State) (m : Msg) (h : Session) :
    s.taken m h = { s with eth := { s.eth with sessions := (s.taken m h).eth.sessions, rx := (s.taken m h).eth.rx
                                               xoff := (s.taken m h).eth.xoff } } := rfl
theorem State.taken_session (s : State) (m : Msg) (h : Session) :
    (s.taken m h).session m.ses = some { h with ready := h.ready.tail } := State.session_setSession_self s m.ses _

end Sys2Proof.Machine
end

