-- ==== Sys2Proof/Tests/Slice0.lean ====
section
/-!
SUPPORT. The model's own tests: ill-formed terms that WellFormed refuses, the worked example of R44, words and commands on small
states, and for each clause of the statements a concrete state and operands that meet its hypotheses together.
-/
namespace Sys2Proof.Tests
set_option Elab.async false -- the kernel checks these one after the other, in little memory
open Sys2Proof Sys2Proof.Machine

/-! ### Helpers -/

/-- A word from its opcode and (value, low bit) pairs. -/
def asm (op : Nat) (fs : List (Nat × Nat)) : DWord := BitVec.ofNat 64 (fs.foldl (fun a x => a ||| x.1 <<< x.2) (op <<< 58))
/-- Core 0 runs and issues w, with every pad bank of its cluster ON. -/
def onCore (w : DWord) (k : Core) : State :=
  { State.reset with cores := [(0, { k with run := .running, istore := [(0, w)] })], clusters := [(0, { Cluster.reset with banks := 0x3FFFFFF })] }
/-- A running core with a wait and no word. -/
def waiting (k : Core) : State := { State.reset with cores := [(0, { k with run := .running })] }
/-- `Issues`, as it is computed. -/
def issuesB (op c : Nat) (w : DWord) (s : State) : Bool :=
  decide (c < 73728) && s.canIssue c && (s.core c).planeLate.isNone && s.fetchOn c && !parityFails (tget (s.core c).istore 0 (s.core c).pc.toNat) w && decide (opOf w = op)
    && !illegalWord w && !badLoop (s.core c) w
theorem issues_of {op c : Nat} {w : DWord} {s : State} (h : issuesB op c w s = true) : Issues op c w s := by
  simp only [issuesB, Bool.and_eq_true, decide_eq_true_eq, Bool.not_eq_true', Option.isNone_iff_eq_none] at h
  exact ⟨h.1.1.1.1.1.1.1, h.1.1.1.1.1.1.2, h.1.1.1.1.1.2, h.1.1.1.1.2, h.1.1.1.2, h.1.1.2, h.1.2, h.2⟩
theorem executes_of {op c : Nat} {w : DWord} {s : State}
    (h : (issuesB op c w s && ((s.core c).predBits w).getLsbD 0) = true) : Executes op c w s := by
  rw [Bool.and_eq_true] at h
  exact ⟨issues_of h.1, h.2⟩
/-- A session of a role. -/
def ses (role : Nat) : Session :=
  { role := role, tenant := 0, digest := 5, pmask := 0, idle := 60, iface := 0, addr := 1, rcvd := 1, ahead := [], ready := [], nextOut := 1
    tx := [], peerWin := 16, cwnd := 16, acked := 0, halved := 0, ece := false, lastRx := 0, keyph := false, key := 1, oldKey := none, xmit := 0
    rekeying := none, sel := [], latch := [], telMs := 0, telKinds := 0, telLast := [], evts := 0 }
/-- A message of session 7 with a body of some bytes. -/
def msg (len : Nat) : Msg := { ses := 7, seq := 3, iface := 0, part := 0, len := len, rsv := 0 }
/-- Session h with message SEQ 3 of a class and type next to be processed. -/
def hear (h : Session) (cls typ : Nat) : Session := { h with ready := [(3, cls, typ)] }
/-- Session 7 of a state. -/
def opened (s : State) (h : Session) : State := s.setSession 7 h
theorem delivered_of {m : Msg} {cls typ len : Nat} {s : State} {h : Session}
    (w : decide (s.session m.ses = some h ∧ h.ready.head? = some (m.seq, cls, typ) ∧ m.len = len ∧ m.rsv = 0 ∧ h.maySend m.iface cls = true ∧ awayOf h.ready.tail = 0) = true) :
    Delivered m cls typ len s h := by
  have w := of_decide_eq_true w
  exact ⟨w.1, w.2.1, w.2.2.1, w.2.2.2.1, w.2.2.2.2.1, w.2.2.2.2.2⟩
/-- A list of numbers in rising order. -/
def sortK (l : List Nat) : List Nat := (List.range 64).filter l.contains
/-- Each number of a list is below the next. -/
def rising : List Nat → Bool
  | a :: b :: l => decide (a < b) && rising (b :: l)
  | _ => true
theorem rising_head_lt {a : Nat} {l : List Nat} (h : rising (a :: l) = true) : ∀ x ∈ l, a < x := by
  induction l generalizing a with
  | nil => simp
  | cons b l ih =>
    simp only [rising, Bool.and_eq_true, decide_eq_true_eq] at h
    intro x hx
    rcases List.mem_cons.mp hx with rfl | hx
    · exact h.1
    · exact Nat.lt_trans h.1 (ih h.2 x hx)
theorem nodup_of_rising {l : List Nat} (h : rising l = true) : l.Nodup := by
  induction l with
  | nil => exact List.nodup_nil
  | cons a l ih =>
    refine List.nodup_cons.mpr ⟨fun m => Nat.lt_irrefl a (rising_head_lt h a m), ih ?_⟩
    cases l with
    | nil => rfl
    | cons b l => simp only [rising, Bool.and_eq_true] at h; exact h.2
/-- Bytes with fields (offset, length, value), little-endian. -/
def image (n : Nat) (fs : List (Nat × Nat × Nat)) : List Byte :=
  (List.range n).map fun i => match fs.find? fun f => decide (f.1 ≤ i) && decide (i < f.1 + f.2.1) with
    | some f => BitVec.ofNat 8 (f.2.2 / 256 ^ (i - f.1))
    | none => 0
/-- Section 1 (GEOM): chunk 4,096, a batch of 8, context 65,536. -/
def geom : Section := ⟨1, 0, image 64 [(2, 2, 4096), (4, 4, 8), (8, 4, 65536), (12, 4, 1024), (16, 1, 1)]⟩
/-- Section 4 (PLAN): plan 0 has 100 slots; both programs run it once, the spin program gated and for one round. -/
def plan : Section := ⟨4, 0, image 0x110 [(0, 2, 100), (0x10, 8, 0x10040), (0x90, 8, 0x10068)]⟩
/-- Section 9 (PAGE): 8-bit KV, one head and one layer, 64 frames a core. -/
def pages : Section := ⟨9, 0, image 32 [(0, 1, 8), (1, 1, 64), (4, 4, 66), (8, 4, 64), (12, 2, 1), (16, 2, 1)]⟩
/-- A READY partition of region 0. -/
def ready : Part := { Part.reset with state := .ready, cfg := [geom, plan, pages] }
/-- Region 0 in RUN as partition 0. -/
def running : Region := { Region.reset with part := some 0, pwr := { RPower.reset with state := 3 }, clk := { RClk.reset with k := 16, kCap := 16, stopped := false } }
/-- A partition on region 0. -/
def onRegion (x : Part) : State := { State.reset with regions := [(0, running)], parts := [(0, x)], clk := { State.reset.clk with wtime := 1000000 } }

/-! ### The part as a whole -/

/-- Two commands wait. -/
def s_queue : State := { State.reset with pending := [.failsReset, .startRetry 0] }
theorem test_step_takes_the_front : step s_queue = exec .failsReset { s_queue with pending := [.startRetry 0] } := rfl
theorem test_idle_tick : (match step State.reset with | .next t => decide (t.clk.wtime = 1) | _ => false) = true := by decide +kernel
theorem witness_queue : s_queue.pending = .failsReset :: [.startRetry 0] ∧ State.reset.pending = [] := ⟨rfl, rfl⟩
theorem witness_units : (Instr.halt 73727 0).wf = true ∧ (Instr.halt 73728 0).wf = false := by decide
/-- A state off reset whose boot record is legal and whose pads and vaults are canonical, and which steps. -/
def s_inv : State :=
  { State.reset with boot := { State.reset.boot with start := 2, runAt := 0, fails := 3, rb := [64, 0, 64, 1] }, pending := [.failsReset]
                     clk := { State.reset.clk with wtime := secs 60 }, cores := [(9, { Core.reset with pad := [(3, 7)] })] }
theorem witness_invariants : s_inv.BootLegal ∧ s_inv.MemoryCanonical := by 
  refine ⟨by unfold State.BootLegal; decide +kernel, fun c => ⟨?_, by rfl⟩⟩
  show Memory.wf (tget [(9, { Core.reset with pad := [(3, 7)] })] Core.reset c).pad = true
  unfold tget; split <;> rfl
theorem witness_invariant_step : step s_inv = .next { s_inv with pending := [], boot := { s_inv.boot with fails := 0 } } := by rfl

/-! ### Ill-formed commands are refused -/

theorem test_ill_cores :
    (([.nop 73728 0, .endRun 73728 0, .endComplete 73728, .halt 73728 0, .jmp 73728 0, .loop 73728 0, .loops 73728 0, .add 73728 0, .sub 73728 0, .mul 73728 0, .and 73728 0, .or 73728 0, .xor 73728 0, .shf 73728 0] : List Instr)
      ++ ([.ldi 73728 0, .pcmp 73728 0, .plog 73728 0, .mfsr 73728 0, .mtsr 73728 0, .emm 73728 0 [], .emmr 73728 0 [], .engineOutputWrite 73728, .engineTileRelease 73728, .eclr 73728 0, .eclrClear 73728, .ewait 73728 0, .ewaitRelease 73728, .vadd 73728 0] : List Instr)
      ++ ([.vsub 73728 0, .vmul 73728 0, .vfma 73728 0, .vmax 73728 0, .vmin 73728 0, .vexp 73728 0, .vrcp 73728 0, .vrsq 73728 0, .vact 73728 0, .vcmp 73728 0, .vsel 73728 0, .vred 73728 0, .vbcst 73728 0, .vcva 73728 0 0] : List Instr)
      ++ ([.vcvm 73728 0, .vcvf 73728 0 [], .vqkv 73728 0 [], .vdqp 73728 0 [], .ld 73728 0 [], .st 73728 0 [], .ldv 73728 0 [], .stv 73728 0, .pcpy 73728 0 [], .vld 73728 0, .tileCommit 73728 [], .vaultRunResume 73728, .vrd 73728 0 [], .vaultOperationComplete 73728 0 [] []] : List Instr)
      ++ ([.vwr 73728 0, .cradv 73728 0, .tsend 73728 0, .twait 73728 0, .twaitRelease 73728, .lsend 73728 0, .lrecv 73728 0, .lput 73728 0, .lputCreditRelease 73728, .lcrd 73728 0, .bar 73728 0, .barw 73728 0, .barwRelease 73728 0 none, .waitc 73728 0] : List Instr)
      ++ ([.waitcRelease 73728, .waitf 73728 0, .fence 73728 0, .fenceRelease 73728, .evt 73728 0, .routerSlot 73728 0 [] [], .creditWordArrival 73728 0 false, .treeDelivery 73728 0, .vaultRefresh 73728, .vaultScrubRead 73728 [], .secondPortTimeout 73728] : List Instr)).all (fun i => !i.wf) = true := by
  decide +kernel
theorem test_ill_regions :
    (([.frameBoundary 64 0, .seamHoldEnd 64 0 [], .heartbeatSample 64 [], .agentHeartbeatMiss 64, .droopTrip 64 false, .ratioStepDown 64, .floorStretchReport 64, .ratioStepUp 64, .clockStartRamp 64, .regionClockRestart 64, .vcoreTrim 64, .gustAdmit 64 [] ⟨[], [], [], false⟩, .powerOnRefused 64 0, .regionSwitchOff 64] : List Instr)
      ++ ([.vminClear (msg 0) 64, .stopConversion 64 none, .vcoreDigitise 64 []] : List Instr)).all (fun i => !i.wf) = true := by
  decide +kernel
theorem test_ill_partitions :
    (([.stepLaunch 16, .stepCommit 16 [] [], .replayRestart 16 [], .faultStepAbandon 16, .faultRerun 16 [], .stepWatchdog 16, .liveRepair 16, .repairCopyDone 16, .vaultRestoreDone 16, .weightsLoaded 16, .partialApply 16, .doffSwitch 16, .inPlaceUnitHold 16, .frameForward 16 0 0 0] : List Instr)
      ++ ([.ptpEventMessage 16 0 0 0 0 0 0, .powerCapAdjust 16, .standbyReturn (msg 0) 16, .erefReset (msg 0) 16 false] : List Instr)).all (fun i => !i.wf) = true := by
  decide +kernel
theorem test_ill_requests :
    (([.reshardComplete 131072, .promptTimeout 131072, .resultTtlExpiry 131072, .histTtlExpiry 131072, .kvTtlExpiry 131072, .pauseDwellExpiry 131072, .spoolOutDurable 131072, .spoolRetry 131072, .spoolInComplete 131072, .spoolWaitExpiry 131072, .ingestWaitExpiry 131072] : List Instr)).all (fun i => !i.wf) = true := by
  decide +kernel
theorem test_ill_ports :
    (([.hello 2 0 0, .rlyStart 2 0 0 0 0, .opticalEngineRemoved 2, .opticalEngineInserted 2 ⟨0, 0, []⟩, .spoolCardRemovalRequest (msg 0) 2, .spoolCardSafe 2, .spoolCardReqClear (msg 0) 2, .spoolCardInserted 2 ⟨0, 0, []⟩ 0 0 0 0 0 0 0 0, .spoolRebuildComplete 2, .spoolCardLost 2, .spoolScrub 2 0 0 0 0 0 0 false false, .governorRecompute 2 0 0, .governorRefill 2, .format (msg 0) 2] : List Instr)
      ++ ([.ethernetReferenceRetry 2 false] : List Instr)).all (fun i => !i.wf) = true := by
  decide +kernel
theorem test_ill_others :
    (([.creditWordArrival 0 4 false, .regulatorDisconnect 0 4 0, .regulatorDisconnect 0 0 4, .treeFlitArrival 1098 0 .link 0, .barrierArrival 1098 none [], .switchOutOfService 10, .switchDrained 10, .switchReturn 10, .protocolAnswer 17 none, .pfcPauseFrame 17 0 0, .linkDown 17, .linkUp 17, .clockMonitorWindow 72 0 false, .regulatorDisconnect 1024 0 0] : List Instr)
      ++ ([.pathResistanceMeasure 1024 0 0, .principalBootstrap 1024 0 0, .coolingConditionSet 5, .coolingConditionClear 5, .eventRecordEntry 65, .auxRailUp 3 0 false false 0, .auxRailUp 0 3 false false 0, .serviceReset 3 0 false false 0, .serviceReset 0 3 false false 0, .fwConfirm 0, .componentRestartDone 0, .fwConfirm 7, .componentRestartDone 7] : List Instr)).all (fun i => !i.wf) = true := by
  decide +kernel

/-! ### Core instructions: control and scalar -/

def w_nop : DWord := asm 0x00 [(3, 0)]
def s_nop : State := onCore w_nop Core.reset
theorem witness_nop : Executes 0x00 0 w_nop s_nop := executes_of (by decide +kernel)
def w_jmp : DWord := asm 0x03 [(7, 42)]
def s_jmp : State := onCore w_jmp { Core.reset with loops := [⟨1, 9, 2, 0⟩, ⟨1, 5, 2, 0⟩] }
theorem witness_jmp : Executes 0x03 0 w_jmp s_jmp := executes_of (by decide +kernel)
def w_loop : DWord := asm 0x04 [(4, 42), (2, 0)]
def s_loop : State := onCore w_loop Core.reset
theorem witness_loop : Executes 0x04 0 w_loop s_loop := executes_of (by decide +kernel)
def w_loops : DWord := asm 0x05 [(4, 42), (3, 37)]
def s_loops : State := onCore w_loops { Core.reset with s := [(3, 65536)] }
theorem witness_loops :
    Executes 0x05 0 w_loops s_loops ∧ ((s_loops.core 0).sreg 3).toNat ≤ 65536 :=
  ⟨executes_of (by decide +kernel), by decide +kernel⟩
def s_loops_big : State := { onCore w_loops { Core.reset with s := [(3, 65537)], score := [(3, 9)] } with regions := [(0, running)], parts := [(0, { ready with debug := true })] }
theorem witness_loops_big :
    Executes 0x05 0 w_loops s_loops_big ∧ 65536 < ((s_loops_big.core 0).sreg 3).toNat ∧ s_loops_big.partOf 0 = some 0 ∧ (s_loops_big.part 0).debug = true ∧ (s_loops_big.part 0).hazMask.getLsbD 6 = false :=
  ⟨executes_of (by decide +kernel), by decide +kernel⟩
def s_loops_zero : State := onCore w_loops Core.reset
theorem witness_loops_zero :
    Executes 0x05 0 w_loops s_loops_zero ∧ ((s_loops_zero.core 0).sreg 3).toNat = 0 :=
  ⟨executes_of (by decide +kernel), by decide +kernel⟩
def w_end : DWord := asm 0x01 []
def s_endRun : State := onCore w_end Core.reset
theorem witness_endRun : Executes 0x01 0 w_end s_endRun := executes_of (by decide +kernel)
def s_endComplete : State := waiting { Core.reset with wait := .endRun }
theorem witness_endComplete :
    ((s_endComplete.core 0).run = .running ∧ (s_endComplete.core 0).wait = .endRun ∧ (s_endComplete.core 0).engDrained = true ∧ (s_endComplete.core 0).vq = []) ∧ (s_endComplete.core 0).desc = [] ∧ (s_endComplete.core 0).lputs = [] ∧ (s_endComplete.core 0).sends = [] :=
  ⟨by decide +kernel, by decide +kernel⟩
def w_halt : DWord := asm 0x02 []
def s_halt : State := onCore w_halt Core.reset
theorem witness_halt : Executes 0x02 0 w_halt s_halt := executes_of (by decide +kernel)
def w_add : DWord := asm 0x06 [(33, 48), (1, 42), (1, 35), (5, 0)]
def s_add : State := onCore w_add { Core.reset with s := [(1, 0xFFFFFFFE)] }
theorem witness_add : Executes 0x06 0 w_add s_add := executes_of (by decide +kernel)
def w_sub : DWord := asm 0x07 [(2, 48), (1, 42), (3, 36)]
def s_sub : State := onCore w_sub { Core.reset with s := [(1, 1), (3, 2)] }
theorem witness_sub : Executes 0x07 0 w_sub s_sub := executes_of (by decide +kernel)
def w_mul : DWord := asm 0x08 [(2, 48), (1, 42), (3, 36)]
def s_mul : State := onCore w_mul { Core.reset with s := [(1, 0x80000001), (3, 2)] }
theorem witness_mul : Executes 0x08 0 w_mul s_mul := executes_of (by decide +kernel)
def w_and : DWord := asm 0x09 [(2, 48), (1, 42), (3, 36)]
def s_and : State := onCore w_and { Core.reset with s := [(1, 6), (3, 3)] }
theorem witness_and : Executes 0x09 0 w_and s_and := executes_of (by decide +kernel)
def w_or : DWord := asm 0x0A [(0, 48), (1, 42), (3, 36)]
def s_or : State := onCore w_or { Core.reset with s := [(1, 6), (3, 3)] }
theorem witness_or : Executes 0x0A 0 w_or s_or := executes_of (by decide +kernel)
def w_xor : DWord := asm 0x0B [(2, 48), (1, 42), (3, 36)]
def s_xor : State := onCore w_xor { Core.reset with s := [(1, 6), (3, 3)] }
theorem witness_xor : Executes 0x0B 0 w_xor s_xor := executes_of (by decide +kernel)
def w_shl : DWord := asm 0x0C [(2, 48), (1, 42), (1, 35), (33, 0)]
def s_shf_left : State := onCore w_shl { Core.reset with s := [(1, 3)] }
theorem witness_shf_left : Executes 0x0C 0 w_shl s_shf_left ∧ fld w_shl 34 32 = 0 := ⟨executes_of (by decide +kernel), by decide +kernel⟩
def w_shr : DWord := asm 0x0C [(2, 48), (1, 42), (1, 35), (1, 32), (31, 0)]
def s_shf_right : State := onCore w_shr { Core.reset with s := [(1, 0x80000000)] }
theorem witness_shf_right : Executes 0x0C 0 w_shr s_shf_right ∧ fld w_shr 34 32 = 1 := ⟨executes_of (by decide +kernel), by decide +kernel⟩
def w_sar : DWord := asm 0x0C [(2, 48), (1, 42), (1, 35), (2, 32), (31, 0)]
def s_shf_arith : State := onCore w_sar { Core.reset with s := [(1, 0x80000000)] }
theorem witness_shf_arith : Executes 0x0C 0 w_sar s_shf_arith ∧ fld w_sar 34 32 = 2 := ⟨executes_of (by decide +kernel), by decide +kernel⟩
def w_ldi : DWord := asm 0x0D [(40, 48), (0xFFF12345, 0)]
def s_ldi : State := onCore w_ldi Core.reset
theorem witness_ldi : Executes 0x0D 0 w_ldi s_ldi := executes_of (by decide +kernel)
def w_peq : DWord := asm 0x0E [(2, 48), (1, 42), (3, 36), (0, 32)]
def s_pcmp_eq : State := onCore w_peq { Core.reset with s := [(1, 6), (3, 6)] }
theorem witness_pcmp_eq : Executes 0x0E 0 w_peq s_pcmp_eq ∧ fld w_peq 34 32 = 0 := ⟨executes_of (by decide +kernel), by decide +kernel⟩
def w_pne : DWord := asm 0x0E [(2, 48), (1, 42), (3, 36), (1, 32)]
def s_pcmp_ne : State := onCore w_pne { Core.reset with s := [(1, 6), (3, 6)] }
theorem witness_pcmp_ne : Executes 0x0E 0 w_pne s_pcmp_ne ∧ fld w_pne 34 32 = 1 := ⟨executes_of (by decide +kernel), by decide +kernel⟩
def w_plt : DWord := asm 0x0E [(2, 48), (1, 42), (3, 36), (2, 32)]
def s_pcmp_lt : State := onCore w_plt { Core.reset with s := [(1, 0xFFFFFFFF), (3, 6)] }
theorem witness_pcmp_lt : Executes 0x0E 0 w_plt s_pcmp_lt ∧ fld w_plt 34 32 = 2 := ⟨executes_of (by decide +kernel), by decide +kernel⟩
def w_pltu : DWord := asm 0x0E [(2, 48), (1, 42), (3, 36), (3, 32)]
def s_pcmp_ltu : State := onCore w_pltu { Core.reset with s := [(1, 0xFFFFFFFF), (3, 6)] }
theorem witness_pcmp_ltu : Executes 0x0E 0 w_pltu s_pcmp_ltu ∧ fld w_pltu 34 32 = 3 := ⟨executes_of (by decide +kernel), by decide +kernel⟩
def w_pge : DWord := asm 0x0E [(0, 48), (1, 42), (3, 36), (4, 32)]
def s_pcmp_ge : State := onCore w_pge { Core.reset with s := [(1, 0xFFFFFFFF), (3, 6)] }
theorem witness_pcmp_ge : Executes 0x0E 0 w_pge s_pcmp_ge ∧ fld w_pge 34 32 = 4 := ⟨executes_of (by decide +kernel), by decide +kernel⟩
def w_pgeu : DWord := asm 0x0E [(7, 48), (1, 42), (3, 36), (5, 32)]
def s_pcmp_geu : State := onCore w_pgeu { Core.reset with s := [(1, 0xFFFFFFFF), (3, 6)] }
theorem witness_pcmp_geu : Executes 0x0E 0 w_pgeu s_pcmp_geu ∧ fld w_pgeu 34 32 = 5 := ⟨executes_of (by decide +kernel), by decide +kernel⟩
def w_pand : DWord := asm 0x0F [(3, 48), (1, 42), (2, 36), (0, 32)]
def s_plog_and : State := onCore w_pand { Core.reset with p := [(1, 0xFF), (2, 0x3C)] }
theorem witness_plog_and : Executes 0x0F 0 w_pand s_plog_and ∧ fld w_pand 34 32 = 0 := ⟨executes_of (by decide +kernel), by decide +kernel⟩
def w_por : DWord := asm 0x0F [(3, 48), (1, 42), (2, 36), (1, 32)]
def s_plog_or : State := onCore w_por { Core.reset with p := [(1, 0xF0), (2, 0x3C)] }
theorem witness_plog_or : Executes 0x0F 0 w_por s_plog_or ∧ fld w_por 34 32 = 1 := ⟨executes_of (by decide +kernel), by decide +kernel⟩
def w_pandn : DWord := asm 0x0F [(3, 48), (1, 42), (2, 36), (2, 32)]
def s_plog_andn : State := onCore w_pandn { Core.reset with p := [(1, 0xF0), (2, 0x3C)] }
theorem witness_plog_andn : Executes 0x0F 0 w_pandn s_plog_andn ∧ fld w_pandn 34 32 = 2 := ⟨executes_of (by decide +kernel), by decide +kernel⟩
def w_pnot : DWord := asm 0x0F [(3, 48), (1, 42), (3, 32)]
def s_plog_not : State := onCore w_pnot { Core.reset with p := [(1, 0xF0)] }
theorem witness_plog_not : Executes 0x0F 0 w_pnot s_plog_not ∧ fld w_pnot 34 32 = 3 := ⟨executes_of (by decide +kernel), by decide +kernel⟩
def w_pimm : DWord := asm 0x0F [(3, 48), (4, 32), (0xABCD, 0)]
def s_plog_imm : State := onCore w_pimm Core.reset
theorem witness_plog_imm : Executes 0x0F 0 w_pimm s_plog_imm ∧ fld w_pimm 34 32 = 4 := ⟨executes_of (by decide +kernel), by decide +kernel⟩
def w_mfsr : DWord := asm 0x10 [(3, 48), (2, 0)]
def s_mfsr : State := onCore w_mfsr { Core.reset with sat := true }
theorem witness_mfsr : Executes 0x10 0 w_mfsr s_mfsr ∧ fld w_mfsr 11 0 = 0x002 := ⟨executes_of (by decide +kernel), by decide +kernel⟩
def w_mfsrf : DWord := asm 0x10 [(3, 48), (0x03F, 0)]
def s_mfsr_fill : State := onCore w_mfsrf { Core.reset with circ := [(47, ⟨0, 4096, 128, 0⟩)] }
theorem witness_mfsr_fill :
    Executes 0x10 0 w_mfsrf s_mfsr_fill ∧ 0x010 ≤ fld w_mfsrf 11 0 ∧ fld w_mfsrf 11 0 ≤ 0x03F :=
  ⟨executes_of (by decide +kernel), by decide +kernel⟩
def w_mfsrl : DWord := asm 0x10 [(3, 48), (0x041, 0)]
def s_mfsr_flag : State := onCore w_mfsrl { Core.reset with lastFlag := 9, frameNo := 4, unf := 2 }
theorem witness_mfsr_flag : Executes 0x10 0 w_mfsrl s_mfsr_flag ∧ fld w_mfsrl 11 0 = 0x041 := ⟨executes_of (by decide +kernel), by decide +kernel⟩
def w_mfsrc : DWord := asm 0x10 [(3, 48), (0x004, 0)]
def s_mfsr_fcyc : State := onCore w_mfsrc { Core.reset with cycle := 70, frameStart := 64, frameNo := 4 }
theorem witness_mfsr_fcyc : Executes 0x10 0 w_mfsrc s_mfsr_fcyc ∧ fld w_mfsrc 11 0 = 0x004 := ⟨executes_of (by decide +kernel), by decide +kernel⟩
def w_mfsrn : DWord := asm 0x10 [(3, 48), (0x006, 0)]
def s_mfsr_frame : State := onCore w_mfsrn { Core.reset with cycle := 70, frameStart := 64, frameNo := 4 }
theorem witness_mfsr_frame : Executes 0x10 0 w_mfsrn s_mfsr_frame ∧ fld w_mfsrn 11 0 = 0x006 := ⟨executes_of (by decide +kernel), by decide +kernel⟩
def w_mfsrd : DWord := asm 0x10 [(3, 48), (0x00D, 0)]
def s_mfsr_cyc : State := onCore w_mfsrd { Core.reset with cycle := 70, score := [(3, 90)] }
theorem witness_mfsr_cyc : Executes 0x10 0 w_mfsrd s_mfsr_cyc ∧ fld w_mfsrd 11 0 = 0x00D := ⟨executes_of (by decide +kernel), by decide +kernel⟩
def w_mfsru : DWord := asm 0x10 [(3, 48), (0x003, 0)]
def s_mfsr_unf : State := onCore w_mfsru { Core.reset with unf := 5 }
theorem witness_mfsr_unf : Executes 0x10 0 w_mfsru s_mfsr_unf ∧ fld w_mfsru 11 0 = 0x003 := ⟨executes_of (by decide +kernel), by decide +kernel⟩
def w_mtunf : DWord := asm 0x11 [(3, 42), (3, 0)]
def s_mtsr_unf : State := onCore w_mtunf { Core.reset with unf := 7 }
theorem witness_mtsr_unf : Executes 0x11 0 w_mtunf s_mtsr_unf ∧ fld w_mtunf 11 0 = 0x003 := ⟨executes_of (by decide +kernel), by decide +kernel⟩
def w_mtsr : DWord := asm 0x11 [(3, 42), (2, 0)]
def s_mtsr_other : State := onCore w_mtsr { Core.reset with unf := 7 }
theorem witness_mtsr_other :
    Executes 0x11 0 w_mtsr s_mtsr_other ∧ fld w_mtsr 11 0 ≠ 0x003 ∧ fld w_mtsr 11 0 ≠ 0x7F0 :=
  ⟨executes_of (by decide +kernel), by decide +kernel⟩
def w_skip : DWord := asm 0x06 [(1, 54), (33, 48), (1, 42), (1, 35), (5, 0)]
def s_predicate_false : State := onCore w_skip Core.reset
theorem witness_predicate_false :
    Issues 0x06 0 w_skip s_predicate_false ∧ ((s_predicate_false.core 0).predBits w_skip).getLsbD 0 = false :=
  ⟨issues_of (by decide +kernel), by decide +kernel⟩
def w_skipld : DWord := asm 0x29 [(1, 54), (3, 48), (1, 44)]
def s_predicate_false_ld : State := onCore w_skipld Core.reset
theorem witness_predicate_false_ld :
    Issues 0x29 0 w_skipld s_predicate_false_ld ∧ ((s_predicate_false_ld.core 0).predBits w_skipld).getLsbD 0 = false :=
  ⟨issues_of (by decide +kernel), by decide +kernel⟩
def s_predicate_false_more (op : Nat) : State := onCore (asm op [(1, 54)]) Core.reset
theorem witness_predicate_false_more : (∀ op ∈ [0x03, 0x0D, 0x0E, 0x10, 0x2A, 0x3D], Issues op 0 (asm op [(1, 54)]) (s_predicate_false_more op)
    ∧ (((s_predicate_false_more op).core 0).predBits (asm op [(1, 54)])).getLsbD 0 = false) := by
  simp only [List.forall_mem_cons]
  exact ⟨⟨issues_of (by decide +kernel), by decide +kernel⟩, ⟨issues_of (by decide +kernel), by decide +kernel⟩,
    ⟨issues_of (by decide +kernel), by decide +kernel⟩, ⟨issues_of (by decide +kernel), by decide +kernel⟩,
    ⟨issues_of (by decide +kernel), by decide +kernel⟩, ⟨issues_of (by decide +kernel), by decide +kernel⟩, fun _ h => nomatch h⟩
def w_skipbar : DWord := asm 0x38 [(1, 54), (3, 0)]
def s_predicate_false_bar : State := onCore w_skipbar Core.reset
theorem witness_predicate_false_bar :
    Issues 0x38 0 w_skipbar s_predicate_false_bar ∧ ((s_predicate_false_bar.core 0).predBits w_skipbar).getLsbD 0 = false :=
  ⟨issues_of (by decide +kernel), by decide +kernel⟩
def s_parity_bad : State := { onCore w_add Core.reset with cores := [(0, { Core.reset with run := .running, istore := [(0, w_add ^^^ 1)] })] }
theorem witness_parity_bad :
    s_parity_bad.canIssue 0 = true ∧ (s_parity_bad.core 0).planeLate = none ∧ s_parity_bad.fetchOn 0 = true ∧ opOf w_add = 0x06 ∧ parityFails (tget (s_parity_bad.core 0).istore 0 (s_parity_bad.core 0).pc.toNat) w_add = true :=
  by decide +kernel
def w_ill : DWord := asm 0x06 [(0x30, 48)]
def s_illegal_word : State := onCore w_ill Core.reset
theorem witness_illegal_word :
    s_illegal_word.canIssue 0 = true ∧ (s_illegal_word.core 0).planeLate = none ∧ s_illegal_word.fetchOn 0 = true ∧ opOf w_ill = 0x06 ∧ parityFails (tget (s_illegal_word.core 0).istore 0 (s_illegal_word.core 0).pc.toNat) w_ill = false ∧ illegalWord w_ill = true :=
  by decide +kernel

/-! ### Core instructions: vectors, conversions, loads and stores -/

/-- Lanes of register 1 hold 2.0, of register 2 hold 0.5, of register 3 hold 1.0. -/
def vecCore : Core := { Core.reset with v := ((List.range 16).map fun l => (16 + l, 0x40000000)) ++ ((List.range 16).map fun l => (32 + l, 0x3F000000)) ++ (List.range 16).map fun l => (48 + l, 0x3F800000) }
def w_vadd : DWord := asm 0x16 [(4, 49), (1, 44), (2, 39)]
def s_vadd : State := onCore w_vadd vecCore
theorem witness_vadd : Issues 0x16 0 w_vadd s_vadd := issues_of (by decide +kernel)
def w_vsub : DWord := asm 0x17 [(1, 54), (4, 49), (1, 44), (2, 39)]
def s_vsub : State := onCore w_vsub vecCore
theorem witness_vsub : Issues 0x17 0 w_vsub s_vsub := issues_of (by decide +kernel)
def w_vmul : DWord := asm 0x18 [(1, 55), (4, 49), (1, 44), (2, 39)]
def s_vmul : State := onCore w_vmul { vecCore with p := [(1, 0x8000)] }
theorem witness_vmul : Issues 0x18 0 w_vmul s_vmul := issues_of (by decide +kernel)
def w_vfma : DWord := asm 0x19 [(4, 49), (1, 44), (2, 39), (3, 34)]
def s_vfma : State := onCore w_vfma vecCore
theorem witness_vfma : Issues 0x19 0 w_vfma s_vfma := issues_of (by decide +kernel)
def w_vmax : DWord := asm 0x1A [(1, 49), (1, 44), (2, 39)]
def s_vmax : State := onCore w_vmax vecCore
theorem witness_vmax : Issues 0x1A 0 w_vmax s_vmax := issues_of (by decide +kernel)
def w_vmin : DWord := asm 0x1B [(1, 49), (1, 44), (2, 39)]
def s_vmin : State := onCore w_vmin vecCore
theorem witness_vmin : Issues 0x1B 0 w_vmin s_vmin := issues_of (by decide +kernel)
def w_vexp : DWord := asm 0x1C [(4, 49), (1, 44)]
def s_vexp : State := onCore w_vexp vecCore
theorem witness_vexp : Issues 0x1C 0 w_vexp s_vexp := issues_of (by decide +kernel)
def w_vrcp : DWord := asm 0x1D [(4, 49), (1, 44)]
def s_vrcp : State := onCore w_vrcp vecCore
theorem witness_vrcp : Issues 0x1D 0 w_vrcp s_vrcp := issues_of (by decide +kernel)
def w_vrsq : DWord := asm 0x1E [(4, 49), (1, 44)]
def s_vrsq : State := onCore w_vrsq vecCore
theorem witness_vrsq : Issues 0x1E 0 w_vrsq s_vrsq := issues_of (by decide +kernel)
def w_vact : DWord := asm 0x1F [(4, 49), (1, 44), (1, 27)]
def s_vact : State := onCore w_vact vecCore
theorem witness_vact : Issues 0x1F 0 w_vact s_vact := issues_of (by decide +kernel)
def w_vcmp : DWord := asm 0x20 [(1, 44), (2, 39), (3, 31), (3, 27)]
def s_vcmp : State := onCore w_vcmp vecCore
theorem witness_vcmp : Issues 0x20 0 w_vcmp s_vcmp ∧ fld w_vcmp 33 31 ≠ 0 := ⟨issues_of (by decide +kernel), by decide +kernel⟩
def w_vsel : DWord := asm 0x21 [(4, 49), (1, 44), (2, 39), (3, 31)]
def s_vsel : State := onCore w_vsel { vecCore with p := [(3, 1)] }
theorem witness_vsel : Issues 0x21 0 w_vsel s_vsel := issues_of (by decide +kernel)
def w_vred : DWord := asm 0x22 [(4, 49), (1, 44), (0, 27)]
def s_vred : State := onCore w_vred vecCore
theorem witness_vred : Issues 0x22 0 w_vred s_vred := issues_of (by decide +kernel)
def w_vbcst : DWord := asm 0x23 [(4, 49), (5, 39), (0, 27)]
def s_vbcst : State := onCore w_vbcst { vecCore with s := [(5, 77)] }
theorem witness_vbcst : Issues 0x23 0 w_vbcst s_vbcst := issues_of (by decide +kernel)
def w_vcva : DWord := asm 0x24 [(1, 49), (2, 45), (1, 32)]
def s_vcva : State := onCore w_vcva { vecCore with a := [(2, 0x80)] }
theorem witness_vcva :
    Executes 0x24 0 w_vcva s_vcva ∧ s_vcva.bytesAnswer 0 (inPad 1 (((s_vcva.core 0).areg 2).toNat / 64 * 64) :: padWrap 0 0x20000 (inPad 1 (((s_vcva.core 0).areg 2).toNat / 64 * 64)) (toEngine ((s_vcva.core 0).lanes 1 1) (s_vcva.eFix 0 0)).ints.length) :=
  ⟨executes_of (by decide +kernel), by unfold State.bytesAnswer; decide +kernel⟩
def s_vcva_path : State := { onCore w_vcva { vecCore with a := [(2, 0x80)] } with regions := [(0, running)], parts := [(0, { ready with act8 := true, exps := [ExpEntry.mk 0 0 0 0 3 5 0 0 0 0 false true 9] })] }
theorem witness_vcva_path :
    Executes 0x24 0 w_vcva s_vcva_path ∧ s_vcva_path.bytesAnswer 0 (inPad 1 (((s_vcva_path.core 0).areg 2).toNat / 64 * 64) :: padWrap 0 0x20000 (inPad 1 (((s_vcva_path.core 0).areg 2).toNat / 64 * 64)) (toEngine ((s_vcva_path.core 0).lanes 1 1) (s_vcva_path.eFix 0 0)).ints.length) ∧ s_vcva_path.eFix 0 0 = some 9 :=
  ⟨executes_of (by decide +kernel), by unfold State.bytesAnswer; decide +kernel, by decide +kernel⟩
def w_vcvm : DWord := asm 0x25 [(1, 49), (2, 45), (4, 37), (1, 32)]
def s_vcvm : State := onCore w_vcvm { vecCore with a := [(2, 0x80)] }
theorem witness_vcvm :
    Executes 0x25 0 w_vcvm s_vcvm ∧ s_vcvm.padAnswers 0 0x80 34 :=
  ⟨executes_of (by decide +kernel), by unfold State.padAnswers State.bytesAnswer; decide +kernel⟩
def w_vqkv : DWord := asm 0x27 [(1, 49), (2, 45), (3, 41), (8, 37), (4, 27)]
def s_vqkv : State := onCore w_vqkv { vecCore with a := [(2, 0x1000), (3, 0x2000)] }
theorem witness_vqkv :
    Executes 0x27 0 w_vqkv s_vqkv ∧ s_vqkv.padAnswers 0 0x2000 256 ∧ s_vqkv.padAnswers 0 0x1000 (kvQuant (fld w_vqkv 40 37) ((s_vqkv.core 0).lanes (fld w_vqkv 53 49) 8) ((chunks 2 128 ((s_vqkv.core 0).bytesAt ((s_vqkv.core 0).startAt w_vqkv (vGroup (fld w_vqkv 53 49) 8 ++ [32 + fld w_vqkv 48 45, 32 + fld w_vqkv 44 41] ++ [fld w_vqkv 31 27]) 0) 0x2000 256)).map leNat)).1.length :=
  ⟨executes_of (by decide +kernel), by unfold State.padAnswers State.bytesAnswer; decide +kernel, by unfold State.padAnswers State.bytesAnswer; decide +kernel⟩
def w_vcvf : DWord := asm 0x26 [(4, 49), (2, 45), (0, 37), (1, 32)]
def s_vcvf : State := onCore w_vcvf { vecCore with a := [(2, 0x80)] }
theorem witness_vcvf :
    Executes 0x26 0 w_vcvf s_vcvf ∧ s_vcvf.padAnswers 0 0x80 (vcvfBytes 0 1) :=
  ⟨executes_of (by decide +kernel), by unfold State.padAnswers State.bytesAnswer; decide +kernel⟩
def w_vdqp : DWord := asm 0x28 [(4, 49), (2, 45), (1, 32), (1, 27), (2, 22)]
def s_vdqp : State := onCore w_vdqp { vecCore with a := [(2, 0x50040)], s := [(1, 0x3F80)] }
theorem witness_vdqp :
    Executes 0x28 0 w_vdqp s_vdqp ∧ s_vdqp.bytesAnswer 0 (padWrap 0x50000 0x10000 (inPad 2 0x50040) 64) :=
  ⟨executes_of (by decide +kernel), by unfold State.bytesAnswer; decide +kernel⟩
def w_ld : DWord := asm 0x29 [(5, 48), (2, 44), (2, 42), (0, 40), (0xFFFFF, 20)]
def s_ld : State := onCore w_ld { Core.reset with a := [(2, 0x83)], pad := [(0x80, 1), (0x83, 2)] }
theorem witness_ld :
    Executes 0x29 0 w_ld s_ld ∧ s_ld.padAnswers 0 (mAddr (s_ld.core 0) w_ld / mSize w_ld * mSize w_ld) (mSize w_ld) :=
  ⟨executes_of (by decide +kernel), by unfold State.padAnswers State.bytesAnswer; decide +kernel⟩
def w_lda : DWord := asm 0x29 [(34, 48), (2, 44), (1, 40)]
def s_ld_address : State := onCore w_lda { Core.reset with a := [(2, 0x82)], pad := [(0x80, 1), (0x83, 2)] }
theorem witness_ld_address :
    Executes 0x29 0 w_lda s_ld_address ∧ s_ld_address.padAnswers 0 (mAddr (s_ld_address.core 0) w_lda / mSize w_lda * mSize w_lda) (mSize w_lda) :=
  ⟨executes_of (by decide +kernel), by unfold State.padAnswers State.bytesAnswer; decide +kernel⟩
def w_ldv : DWord := asm 0x2B [(5, 48), (2, 44), (1, 40)]
def s_ldv : State := onCore w_ldv { Core.reset with a := [(2, 0x80)], pad := [(0x80, 0x80), (0x81, 0x3F)] }
theorem witness_ldv :
    Executes 0x2B 0 w_ldv s_ldv ∧ s_ldv.padAnswers 0 (mAddr (s_ldv.core 0) w_ldv / mvSize w_ldv * mvSize w_ldv) (mvSize w_ldv) :=
  ⟨executes_of (by decide +kernel), by unfold State.padAnswers State.bytesAnswer; decide +kernel⟩
def w_st : DWord := asm 0x2A [(5, 48), (2, 44), (1, 40)]
def s_st : State := onCore w_st { Core.reset with a := [(2, 0x81)], s := [(5, 0x11223344)] }
theorem witness_st :
    Executes 0x2A 0 w_st s_st ∧ s_st.padAnswers 0 (mAddr (s_st.core 0) w_st / mSize w_st * mSize w_st) (mSize w_st) :=
  ⟨executes_of (by decide +kernel), by unfold State.padAnswers State.bytesAnswer; decide +kernel⟩
def s_st_refused : State := { onCore w_st { Core.reset with a := [(2, 0x81)], s := [(5, 0x11223344)] } with clusters := [(0, { Cluster.reset with banks := 0x3000000 })] }
theorem witness_st_refused :
    Executes 0x2A 0 w_st s_st_refused ∧ accessCause (s_st_refused.cluster (0 / 72)).banks (mAddr (s_st_refused.core 0) w_st / mSize w_st * mSize w_st) (mSize w_st) ≠ none :=
  ⟨executes_of (by decide +kernel), by decide +kernel⟩
def w_stv : DWord := asm 0x2C [(1, 48), (2, 44)]
def s_stv : State := onCore w_stv { vecCore with a := [(2, 0x80)] }
theorem witness_stv :
    Executes 0x2C 0 w_stv s_stv ∧ s_stv.padAnswers 0 0x80 64 :=
  ⟨executes_of (by decide +kernel), by unfold State.padAnswers State.bytesAnswer; decide +kernel⟩
def w_pcpy : DWord := asm 0x2D [(1, 48), (2, 44), (0, 8)]
def s_pcpy : State := onCore w_pcpy { Core.reset with a := [(1, 0x200), (2, 0x80)], pad := [(0x80, 9), (0xBF, 8)] }
theorem witness_pcpy :
    Executes 0x2D 0 w_pcpy s_pcpy ∧ s_pcpy.padAnswers 0 0x80 64 ∧ s_pcpy.padAnswers 0 0x200 64 :=
  ⟨executes_of (by decide +kernel), by unfold State.padAnswers State.bytesAnswer; decide +kernel, by unfold State.padAnswers State.bytesAnswer; decide +kernel⟩

/-! ### Core instructions: the engine -/

/-- One 1-bit tile stands in W-pad region 0, one activation row in the A-pad; a2 and a3 address the A-pad and the P-pad; s1 is 3. -/
def engCore : Core :=
  { Core.reset with circ := [(0, ⟨0, 0x1000, 576, 0⟩)], a := [(2, 0), (3, 0x50000)], s := [(1, 3), (4, 0xFFFF), (5, 0x80000000)], pad := [(0, 7)] }
def w_emm : DWord := asm 0x12 [(0, 51), (0, 44), (1, 36), (2, 32), (3, 22), (1, 21), (1, 20), (4, 9), (4, 4)]
def s_emm : State := onCore w_emm engCore
theorem witness_emm : Executes 0x12 0 w_emm s_emm := executes_of (by decide +kernel)
def w_emmr : DWord := asm 0x13 [(0, 51), (0, 44), (1, 36), (2, 32), (3, 22)]
def s_emmr : State := onCore w_emmr engCore
theorem witness_emmr :
    Executes 0x13 0 w_emmr s_emmr ∧ (s_emmr.core 0).sreg (fld w_emmr 40 36) ≠ 0 :=
  ⟨executes_of (by decide +kernel), by decide +kernel⟩
def w_emmr_zero : DWord := asm 0x13 [(2, 36), (2, 32), (3, 22)]
def s_emmr_zero : State := onCore w_emmr_zero engCore
theorem witness_emmr_zero :
    Executes 0x13 0 w_emmr_zero s_emmr_zero ∧ (s_emmr_zero.core 0).sreg (fld w_emmr_zero 40 36) = 0 :=
  ⟨executes_of (by decide +kernel), by decide +kernel⟩
def s_emm_underrun : State := onCore w_emm { engCore with eng := [emmOp engCore (asm 0x12 [(1, 51), (1, 44)]) [] 4], engFree := 20 }
theorem witness_emm_underrun :
    s_emm_underrun.canIssue 0 = true ∧ (s_emm_underrun.core 0).planeLate = some 4 ∧ 4 ≤ (s_emm_underrun.core 0).startAt w_emm (emmReads w_emm ++ emmWrites w_emm) (s_emm_underrun.core 0).engFree :=
  by decide +kernel
theorem witness_emm_masks :
    (fld w_emm 13 9 ≠ 0 ∧ fld w_emm 13 9 < 31 ∧ fld w_emm 8 4 ≠ 0 ∧ fld w_emm 8 4 < 31) ∧ fld w_emmr 13 9 = 0 ∧ fld w_emmr 8 4 = 0 :=
  ⟨by decide +kernel, by decide +kernel⟩
theorem witness_align_saturating : (16 : Int) > 15 ∧ (1 : Int) > 0 ∧ (-1 : Int) < 0 := by decide +kernel
theorem witness_align_shifting : (0 : Int) ≤ 15 ∧ (-24 : Int) ≤ -1 ∧ (-25 : Int) < -24 := by decide +kernel
def s_engine_output : State := { State.reset with cores := [(0, { engCore with eng := [emmOp engCore w_emm [] 1] })], clusters := [(0, { Cluster.reset with banks := 0x3FFFFFF })] }
theorem witness_engine_output :
    (s_engine_output.core 0).eng.find? (fun o => decide (o.written < o.v)) = some (emmOp engCore w_emm [] 1) ∧ (emmOp engCore w_emm [] 1).t0 + (emmOp engCore w_emm [] 1).b * ((emmOp engCore w_emm [] 1).written + 1) - 1 = 1 ∧ ((latchOp (s_engine_output.core 0) (s_engine_output.cluster 0).banks 1 (emmOp engCore w_emm [] 1)).latched[0]?).isSome = true ∧ (emmOp engCore w_emm [] 1).pAddr % 4 = 0 ∧ ((latchOp (s_engine_output.core 0) (s_engine_output.cluster 0).banks 1 (emmOp engCore w_emm [] 1)).latched.getD 0 []).length ≤ 256 ∧ (∀ j, j < ((latchOp (s_engine_output.core 0) (s_engine_output.cluster 0).banks 1 (emmOp engCore w_emm [] 1)).latched.getD 0 []).length → accessCause (s_engine_output.cluster 0).banks (0x50000 + ((emmOp engCore w_emm [] 1).pAddr + 4 * j) % 0x10000) 4 = none) :=
  ⟨by decide +kernel, by decide +kernel, by decide +kernel, by decide +kernel, by decide +kernel, by decide +kernel⟩
def s_engine_parity : State := { State.reset with cores := [(0, { engCore with eng := [{ emmOp engCore w_emm [.parity 0 0 1 1] 1 with v := 1 }] })], clusters := [(0, { Cluster.reset with banks := 0x3FFFFFF })] }
def s_engine_release : State := { State.reset with cores := [(0, { engCore with eng := [emmOp engCore w_emm [] 0] })], clusters := [(0, { Cluster.reset with banks := 0x3FFFFFF })] }
theorem witness_engine_release :
    (s_engine_release.core 0).eng.find? (fun o => !o.released) = some (emmOp engCore w_emm [] 0) ∧ (emmOp engCore w_emm [] 0).t0 + (emmOp engCore w_emm [] 0).b * (emmOp engCore w_emm [] 0).v = 2 ∧ (emmOp engCore w_emm [] 0).v ≤ (latchOp (s_engine_release.core 0) (s_engine_release.cluster 0).banks 2 (emmOp engCore w_emm [] 0)).latched.length :=
  ⟨by decide +kernel, by decide +kernel, by decide +kernel⟩
def w_eclr : DWord := asm 0x14 []
def s_eclr : State := onCore w_eclr Core.reset
theorem witness_eclr : Executes 0x14 0 w_eclr s_eclr := executes_of (by decide +kernel)
def s_eclr_clear : State := waiting { Core.reset with wait := .eclr, sat := true, bxo := true, par := true, res := true, und := true, wmark := 9, unf := 4 }
theorem witness_eclr_clear :
    (s_eclr_clear.core 0).run = .running ∧ (s_eclr_clear.core 0).wait = .eclr ∧ (s_eclr_clear.core 0).engDrained = true :=
  by decide +kernel
def s_not_drained : State := waiting { engCore with wait := .eclr, eng := [emmOp engCore w_emm [] 0] }
theorem witness_not_drained : (s_not_drained.core 0).engDrained = false ∧ (s_not_drained.core 0).wait = .eclr := ⟨by decide +kernel, by decide +kernel⟩
def w_ewait : DWord := asm 0x15 []
def s_ewait : State := onCore w_ewait Core.reset
theorem witness_ewait : Executes 0x15 0 w_ewait s_ewait := executes_of (by decide +kernel)
def s_ewait_release : State := waiting { Core.reset with wait := .ewait, engFree := 10, engLast := 16 }
theorem witness_ewait_release :
    (s_ewait_release.core 0).run = .running ∧ (s_ewait_release.core 0).wait = .ewait ∧ (s_ewait_release.core 0).engDrained = true :=
  by decide +kernel
theorem witness_r44_example :
    ((alignOut 300000 5 false 0).val = 9600000 ∧ (alignOut 300000 5 false 0).sat = false) ∧ (alignOut (-1000000) 15 true 9600000).val = -0x80000000 ∧ (alignOut (-1000000) 15 true 9600000).sat = true :=
  ⟨by decide +kernel, by decide +kernel⟩

/-! ### Core instructions: the vault port -/

/-- s1 is the first burst, a2 a pad address, A-pad region 3 a circular region. -/
def movCore : Core :=
  { Core.reset with s := [(1, 0x7FFFF), (2, 100)], a := [(2, 0x30000), (3, 0x50000)], circ := [(0, ⟨0, 0x1000, 0, 0⟩), (16 + 3, ⟨0, 0x1000, 0x80, 0x40⟩)], pad := [(0x30001, 9), (0x30041, 8)] }
/-- A granule of an operation. -/
def op0 : VaultOp := vaultOpOf movCore (asm 0x2E [(1, 49), (8, 37)])
def w_vld : DWord := asm 0x2E [(1, 49), (8, 37), (2, 27)]
def s_vld : State := onCore w_vld movCore
theorem witness_vld : Executes 0x2E 0 w_vld s_vld ∧ (s_vld.core 0).vq.length < 4 := ⟨executes_of (by decide +kernel), by decide +kernel⟩
def s_vld_full : State := onCore w_vld { movCore with vq := [op0, op0, op0, op0] }
theorem witness_vld_full : Executes 0x2E 0 w_vld s_vld_full ∧ 4 ≤ (s_vld_full.core 0).vq.length := ⟨executes_of (by decide +kernel), by decide +kernel⟩
def w_vldc : DWord := asm 0x2E [(1, 49), (8, 37), (2, 27), (1, 26), (2, 22)]
def s_vld_capture : State := onCore w_vldc movCore
theorem witness_vld_capture :
    Executes 0x2E 0 w_vldc s_vld_capture ∧ (s_vld_capture.core 0).vq.length < 4 ∧ fbit w_vldc 26 = true :=
  ⟨executes_of (by decide +kernel), by decide +kernel⟩
def w_vrd : DWord := asm 0x2F [(1, 49), (1, 37), (2, 27)]
def s_vrd : State := onCore w_vrd movCore
theorem witness_vrd : Executes 0x2F 0 w_vrd s_vrd ∧ (s_vrd.core 0).vq.length < 4 := ⟨executes_of (by decide +kernel), by decide +kernel⟩
def w_vwr : DWord := asm 0x30 [(1, 49), (1, 37), (2, 27)]
def s_vwr : State := onCore w_vwr { movCore with vq := [op0] }
theorem witness_vwr :
    Executes 0x30 0 w_vwr s_vwr ∧ (s_vwr.core 0).vq.length < 4 ∧ (s_vwr.core 0).vq ≠ [] :=
  ⟨executes_of (by decide +kernel), by decide +kernel⟩
def s_tile_commit : State := { State.reset with cores := [(0, { movCore with run := .running, vq := [{ op0 with bufs := [⟨List.replicate 576 1, none⟩] }] })], clusters := [(0, { Cluster.reset with banks := 0x3FFFFFF })] }
theorem witness_tile_commit :
    (s_tile_commit.core 0).vq = [{ op0 with bufs := [⟨List.replicate 576 1, none⟩] }] ∧ op0.kind = .vld ∧ tileBytes (widBits op0.wid) ≤ ((s_tile_commit.core 0).circOf 0 op0.wreg).size - ((s_tile_commit.core 0).circOf 0 op0.wreg).fill ∧ ((List.replicate 576 (1 : Byte)).length ≤ ((s_tile_commit.core 0).circOf 0 op0.wreg).size ∧ ((s_tile_commit.engCatch 0 (s_tile_commit.regionCount 0)).core 0).planeLate = none) ∧ (s_tile_commit.core 0).circOff (s_tile_commit.cluster (0 / 72)).banks 0 op0.wreg ((s_tile_commit.core 0).circOf 0 op0.wreg).head 576 = none :=
  ⟨by decide +kernel, by decide +kernel, by decide +kernel, by decide +kernel, by decide +kernel⟩
def s_run_resume : State := waiting { movCore with vq := [{ op0 with paused := true }] }
theorem witness_run_resume :
    (s_run_resume.core 0).vq = [{ op0 with paused := true }] ∧ ({ op0 with paused := true } : VaultOp).bufs.length < 3 :=
  ⟨by decide +kernel, by decide +kernel⟩
/-- An operation whose first plane is due at cycle 4, the W-pad empty, and the tile that has it assembled. -/
def s_plane_arrives : State := { State.reset with cores := [(0, { movCore with run := .running, eng := [emmOp movCore (asm 0x12 [(2, 32), (3, 22)]) [] 4], vq := [{ op0 with bufs := [⟨List.replicate 576 1, none⟩] }] })], clusters := [(0, { Cluster.reset with banks := 0x3FFFFFF })], regions := [(0, { running with net := { RNet.reset with inFrame := true, count := 40, exec := 40 } })] }
theorem witness_plane_arrives :
    ((s_plane_arrives.engCatch 0 (s_plane_arrives.regionCount 0)).core 0).planeLate = some 4 ∧ (((s_plane_arrives.engCatch 0 (s_plane_arrives.regionCount 0)).tileStep 0).core 0).planeLate ≠ some 4 ∧ 4 < ((s_plane_arrives.engCatch 0 (s_plane_arrives.regionCount 0)).tileStep 0).resumeAt 0 0 :=
  ⟨by decide +kernel, by decide +kernel⟩
def s_op_complete : State := waiting { movCore with vq := [{ op0 with tiles := 1, nextBurst := 9 }] }
theorem witness_op_complete :
    ((s_op_complete.core 0).vq = [{ op0 with tiles := 1, nextBurst := 9 }] ∧ op0.kind = .vld) ∧ ({ op0 with tiles := 1, nextBurst := 9 } : VaultOp).finished = true ∧ (s_op_complete.core 0).wait = .none :=
  ⟨by decide +kernel, by decide +kernel, by decide +kernel⟩
def s_vrd_complete : State := { State.reset with cores := [(0, { movCore with run := .running, vq := [vaultOpOf movCore w_vrd] })], clusters := [(0, { Cluster.reset with banks := 0x3FFFFFF })] }
theorem witness_vrd_complete :
    ((s_vrd_complete.core 0).vq = [vaultOpOf movCore w_vrd] ∧ (s_vrd_complete.core 0).wait = .none ∧ (vaultOpOf movCore w_vrd).kind = .vrd) ∧ ((vaultOpOf movCore w_vrd).addr = 0x30000 ∧ (vaultOpOf movCore w_vrd).start = 0x7FFFF ∧ (vaultOpOf movCore w_vrd).count = 2) ∧ s_vrd_complete.padAnswers 0 0x30000 64 ∧ s_vrd_complete.padAnswers 0 0x30040 64 ∧ (s_vrd_complete.vault 0).decode 0x7FFFF = .clean ∧ (s_vrd_complete.vault 0).decode 0 = .clean :=
  ⟨by decide +kernel, by decide +kernel, by unfold State.padAnswers State.bytesAnswer; decide +kernel, by unfold State.padAnswers State.bytesAnswer; decide +kernel, by decide +kernel⟩
def s_vwr_complete : State := { State.reset with cores := [(0, { movCore with run := .running, vq := [vaultOpOf movCore w_vwr] })], clusters := [(0, { Cluster.reset with banks := 0x3FFFFFF })] }
theorem witness_vwr_complete :
    ((s_vwr_complete.core 0).vq = [vaultOpOf movCore w_vwr] ∧ (s_vwr_complete.core 0).wait = .none ∧ (vaultOpOf movCore w_vwr).kind = .vwr) ∧ ((vaultOpOf movCore w_vwr).addr = 0x30000 ∧ (vaultOpOf movCore w_vwr).start = 0x7FFFF ∧ (vaultOpOf movCore w_vwr).count = 2) ∧ s_vwr_complete.padAnswers 0 0x30000 64 ∧ s_vwr_complete.padAnswers 0 0x30040 64 :=
  ⟨by decide +kernel, by decide +kernel, by unfold State.padAnswers State.bytesAnswer; decide +kernel, by unfold State.padAnswers State.bytesAnswer; decide +kernel⟩

/-! ### Core instructions: the tree interface and the lattice -/

def w_cradv : DWord := asm 0x31 [(1, 48), (3, 44), (1, 42), (0x40, 0)]
def s_cradv : State := onCore w_cradv movCore
theorem witness_cradv : Executes 0x31 0 w_cradv s_cradv := executes_of (by decide +kernel)
def w_cradvt : DWord := asm 0x31 [(3, 44), (1, 42), (0x4000, 0)]
def s_cradv_tail : State := onCore w_cradvt movCore
theorem witness_cradv_tail : Executes 0x31 0 w_cradvt s_cradv_tail := executes_of (by decide +kernel)
def w_tsend : DWord := asm 0x32 [(1, 52), (2, 48), (3, 42), (77, 26)]
def s_tsend : State := onCore w_tsend movCore
theorem witness_tsend : Executes 0x32 0 w_tsend s_tsend ∧ (s_tsend.core 0).sends.length < 8 := ⟨executes_of (by decide +kernel), by decide +kernel⟩
def s_tsend_full : State := onCore w_tsend { movCore with sends := List.replicate 8 ⟨0, 0, 1, 0, 0, false, false, true, 0, 0⟩ }
theorem witness_tsend_full :
    Executes 0x32 0 w_tsend s_tsend_full ∧ 8 ≤ (s_tsend_full.core 0).sends.length :=
  ⟨executes_of (by decide +kernel), by decide +kernel⟩
def w_twait : DWord := asm 0x33 [(3, 20), (0x40, 0)]
def s_twait : State := onCore w_twait movCore
theorem witness_twait : Executes 0x33 0 w_twait s_twait := executes_of (by decide +kernel)
def w_twaith : DWord := asm 0x33 [(3, 20), (0x41, 0)]
def s_twait_held : State := onCore w_twaith movCore
theorem witness_twait_held : Executes 0x33 0 w_twaith s_twait_held := executes_of (by decide +kernel)
def s_twait_release : State := waiting { movCore with wait := .twait 3 0x40 }
theorem witness_twait_release : (s_twait_release.core 0).wait = .twait 3 0x40 ∧ ((s_twait_release.core 0).circOf 1 3).fill ≥ 0x40 := by decide +kernel
def w_lsend : DWord := asm 0x34 [(100, 42), (2, 38)]
def s_lsend : State := onCore w_lsend movCore
theorem witness_lsend :
    Executes 0x34 0 w_lsend s_lsend ∧ s_lsend.descUsed 0 ((s_lsend.core 0).startAt w_lsend [32 + fld w_lsend 41 38] 0) < 16 ∧ (s_lsend.core 0).startAt w_lsend [32 + fld w_lsend 41 38] 0 - (s_lsend.core 0).frameStart + 4 ≤ fld w_lsend 53 42 :=
  ⟨executes_of (by decide +kernel), by decide +kernel⟩
def w_lrecv : DWord := asm 0x35 [(4, 42), (2, 38)]
def s_lrecv : State := onCore w_lrecv movCore
theorem witness_lrecv :
    Executes 0x35 0 w_lrecv s_lrecv ∧ s_lrecv.descUsed 0 ((s_lrecv.core 0).startAt w_lrecv [32 + fld w_lrecv 41 38] 0) < 16 ∧ (s_lrecv.core 0).startAt w_lrecv [32 + fld w_lrecv 41 38] 0 - (s_lrecv.core 0).frameStart + 4 ≤ fld w_lrecv 53 42 :=
  ⟨executes_of (by decide +kernel), by decide +kernel⟩
def w_lsend_late : DWord := asm 0x34 [(3, 42), (2, 38)]
def s_lsend_late : State := onCore w_lsend_late movCore
theorem witness_lsend_late :
    Executes 0x34 0 w_lsend_late s_lsend_late ∧ s_lsend_late.descUsed 0 ((s_lsend_late.core 0).startAt w_lsend_late [32 + fld w_lsend_late 41 38] 0) < 16 ∧ fld w_lsend_late 53 42 < (s_lsend_late.core 0).startAt w_lsend_late [32 + fld w_lsend_late 41 38] 0 - (s_lsend_late.core 0).frameStart + 4 :=
  ⟨executes_of (by decide +kernel), by decide +kernel⟩
def w_lrecv_late : DWord := asm 0x35 [(3, 42), (2, 38)]
def s_lrecv_late : State := onCore w_lrecv_late movCore
theorem witness_lrecv_late :
    Executes 0x35 0 w_lrecv_late s_lrecv_late ∧ s_lrecv_late.descUsed 0 ((s_lrecv_late.core 0).startAt w_lrecv_late [32 + fld w_lrecv_late 41 38] 0) < 16 ∧ fld w_lrecv_late 53 42 < (s_lrecv_late.core 0).startAt w_lrecv_late [32 + fld w_lrecv_late 41 38] 0 - (s_lrecv_late.core 0).frameStart + 4 :=
  ⟨executes_of (by decide +kernel), by decide +kernel⟩
def w_lput : DWord := asm 0x36 [(1, 15), (3, 11), (2, 38)]
def s_lput : State := { onCore w_lput { movCore with credit := [(19, 64)], creditInit := [(19, 64)] } with regions := [(0, { Region.reset with net := { RNet.reset with closed := 0 } })] }
theorem witness_lput :
    Executes 0x36 0 w_lput s_lput ∧ s_lput.linkClosed 0 (fld w_lput 16 15) = false ∧ lputNeed w_lput ≤ tget (s_lput.core 0).credit 0 (16 * fld w_lput 16 15 + fld w_lput 14 11) :=
  ⟨executes_of (by decide +kernel), by decide +kernel, by decide +kernel⟩
def w_lputn : DWord := asm 0x36 [(3, 11), (2, 38)]
def s_lput_closed : State := onCore w_lputn { movCore with credit := [(3, 64)], creditInit := [(3, 64)] }
theorem witness_lput_closed :
    Executes 0x36 0 w_lputn s_lput_closed ∧ s_lput_closed.linkClosed 0 (fld w_lputn 16 15) = true :=
  ⟨executes_of (by decide +kernel), by decide +kernel⟩
def s_lput_stall : State := onCore w_lput movCore
theorem witness_lput_stall :
    Executes 0x36 0 w_lput s_lput_stall ∧ tget (s_lput_stall.core 0).credit 0 (16 * fld w_lput 16 15 + fld w_lput 14 11) < lputNeed w_lput :=
  ⟨executes_of (by decide +kernel), by decide +kernel⟩
def s_lput_release : State := { waiting { movCore with wait := .stall w_lput, credit := [(19, 1)] } with regions := [(0, { Region.reset with net := { RNet.reset with closed := 0 } })] }
theorem witness_lput_release :
    ((s_lput_release.core 0).wait = .stall w_lput ∧ opOf w_lput = 0x36) ∧ s_lput_release.linkClosed 0 (fld w_lput 16 15) = false ∧ lputNeed w_lput ≤ tget (s_lput_release.core 0).credit 0 (16 * fld w_lput 16 15 + fld w_lput 14 11) :=
  ⟨by decide +kernel, by decide +kernel⟩
def w_lcrd : DWord := asm 0x37 [(1, 15), (3, 11), (5, 0)]
def s_lcrd : State := { onCore w_lcrd { movCore with released := [(3, 200)] } with regions := [(0, { Region.reset with net := { RNet.reset with closed := 0 } })] }
theorem witness_lcrd :
    Executes 0x37 0 w_lcrd s_lcrd ∧ s_lcrd.neighbor 0 (fld w_lcrd 16 15) = some 1 ∧ s_lcrd.linkClosed 0 (fld w_lcrd 16 15) = false :=
  ⟨executes_of (by decide +kernel), by decide +kernel, by decide +kernel⟩
/-- Core 223 returns credit over the seam to core 1152 of region 1, whose queue holds 16 words. -/
def s_lcrd_full : State := { State.reset with cores := [(223, { movCore with run := .running, istore := [(0, w_lcrd)], released := [(3, 200)] }), (1152, { Core.reset with creditIn := [(3, List.replicate 16 (1, 1))] })], clusters := [(3, { Cluster.reset with banks := 0x3FFFFFF })], regions := [(0, { Region.reset with net := { RNet.reset with closed := 0 } }), (1, { Region.reset with net := { RNet.reset with closed := 0 } })] }
theorem witness_lcrd_full :
    Executes 0x37 223 w_lcrd s_lcrd_full ∧ (s_lcrd_full.neighbor 223 1 = some 1152 ∧ s_lcrd_full.linkClosed 223 1 = false ∧ regionOf 1152 ≠ regionOf 223) ∧ 16 ≤ (tget (s_lcrd_full.core 1152).creditIn [] ((1 + 2) % 4)).length :=
  ⟨executes_of (by decide +kernel), by decide +kernel, by decide +kernel⟩
def s_credit_word : State := { State.reset with cores := [(0, { Core.reset with creditIn := [(3, [(15, 9), (2, 1)])], credit := [(63, 60)], creditInit := [(63, 64)] })] }
theorem witness_credit_word :
    tget (s_credit_word.core 0).creditIn [] 3 = [(15, 9), (2, 1)] ∧ (∀ n', s_credit_word.neighbor 0 3 = some n' → (s_credit_word.core n').wait = .none) :=
  ⟨by decide +kernel, by decide +kernel⟩

/-! ### Core instructions: synchronisation -/

def w_bar : DWord := asm 0x38 [(7, 0)]
def s_bar : State := onCore w_bar movCore
theorem witness_bar :
    Executes 0x38 0 w_bar s_bar ∧ (fbit w_bar 4 = true → (s_bar.core 0).engDrained = true) :=
  ⟨executes_of (by decide +kernel), by decide +kernel⟩
def w_barf : DWord := asm 0x38 [(1, 4), (7, 0)]
def s_bar_flags : State := onCore w_barf { movCore with sat := true, wmark := 12 }
theorem witness_bar_flags :
    Executes 0x38 0 w_barf s_bar_flags ∧ fbit w_barf 4 = true ∧ (s_bar_flags.core 0).engDrained = true :=
  ⟨executes_of (by decide +kernel), by decide +kernel⟩
def s_bar_held : State := onCore w_barf { engCore with eng := [emmOp engCore w_emm [] 0] }
theorem witness_bar_held :
    Executes 0x38 0 w_barf s_bar_held ∧ fbit w_barf 4 = true ∧ (s_bar_held.core 0).engDrained = false :=
  ⟨executes_of (by decide +kernel), by decide +kernel⟩
def w_barw : DWord := asm 0x39 [(4, 37), (7, 0)]
def s_barw : State := onCore w_barw movCore
theorem witness_barw : Executes 0x39 0 w_barw s_barw := executes_of (by decide +kernel)
def w_waitc : DWord := asm 0x3A [(0xFFF, 0)]
def s_waitc : State := onCore w_waitc movCore
theorem witness_waitc :
    Executes 0x3A 0 w_waitc s_waitc ∧ (s_waitc.core 0).startAt w_waitc [] 0 - (s_waitc.core 0).frameStart < fld w_waitc 11 0 :=
  ⟨executes_of (by decide +kernel), by decide +kernel⟩
def w_waitc0 : DWord := asm 0x3A []
def s_waitc_met : State := onCore w_waitc0 movCore
theorem witness_waitc_met :
    Executes 0x3A 0 w_waitc0 s_waitc_met ∧ fld w_waitc0 11 0 ≤ (s_waitc_met.core 0).startAt w_waitc0 [] 0 - (s_waitc_met.core 0).frameStart :=
  ⟨executes_of (by decide +kernel), by decide +kernel⟩
def s_waitc_release : State := waiting { movCore with wait := .waitc 9 }
theorem witness_waitc_release : (s_waitc_release.core 0).wait = .waitc 9 := by decide +kernel
def w_waitf : DWord := asm 0x3B []
def s_waitf : State := onCore w_waitf movCore
theorem witness_waitf : Executes 0x3B 0 w_waitf s_waitf := executes_of (by decide +kernel)
def w_fence : DWord := asm 0x3C [(15, 0)]
def s_fence : State := onCore w_fence movCore
theorem witness_fence : Executes 0x3C 0 w_fence s_fence := executes_of (by decide +kernel)
def s_fence_release : State := waiting { movCore with wait := .fence 15 }
theorem witness_fence_release :
    (s_fence_release.core 0).wait = .fence 15 ∧ (s_fence_release.core 0).vq = [] ∧ s_fence_release.descDone 0 = true ∧ (s_fence_release.core 0).lputs = [] ∧ (s_fence_release.core 0).sends = [] :=
  ⟨by decide +kernel, by decide +kernel⟩
def w_evt : DWord := asm 0x3D []
def s_evt : State := onCore w_evt movCore
theorem witness_evt : Executes 0x3D 0 w_evt s_evt := executes_of (by decide +kernel)
def s_barrier_release : State := { waiting { movCore with wait := .barw 7 4 } with tree := { State.reset.tree with rels := [⟨0, 7, 0x201, false⟩] } }
theorem witness_barrier_release :
    (s_barrier_release.core 0).wait = .barw 7 4 ∧ s_barrier_release.tree.rels.find? (fun r => decide (r.core = 0) && decide (r.bar = 7)) = some ⟨0, 7, 0x201, false⟩ :=
  ⟨by decide +kernel, by decide +kernel⟩
def s_barrier_clean : State := { waiting { movCore with wait := .barw 7 4 } with tree := { State.reset.tree with rels := [⟨0, 7, 0x200, false⟩] } }
theorem witness_barrier_clean :
    (s_barrier_clean.core 0).wait = .barw 7 4 ∧ s_barrier_clean.tree.rels.find? (fun r => decide (r.core = 0) && decide (r.bar = 7)) = some ⟨0, 7, 0x200, false⟩ ∧ (0x200 : Word).toNat % 4 = 0 :=
  ⟨by decide +kernel, by decide +kernel, by decide +kernel⟩

/-! ### The lattice and the express tree -/

/-- Region 0 in a frame of 100 slots. -/
def framed (x : Part) (n : RNet) : State := { onRegion x with regions := [(0, { running with net := { n with inFrame := true } })] }
def s_frame_boundary : State := { framed ready RNet.reset with cores := [(0, { Core.reset with run := .running, wait := .waitf })] }
theorem witness_frame_boundary :
    (s_frame_boundary.liveCores 0 ≠ [] ∧ (s_frame_boundary.region 0).net.inFrame = true ∧ (s_frame_boundary.region 0).net.held = none) ∧ (∀ c ∈ s_frame_boundary.liveCores 0, (s_frame_boundary.core c).late = false) ∧ (s_frame_boundary.part 0).freezeAt = none ∧ (s_frame_boundary.liveCores 0).Nodup :=
  ⟨by decide +kernel, by decide +kernel, by decide +kernel, nodup_of_rising (by decide +kernel)⟩
def s_frame_gate : State := { framed ready RNet.reset with cores := [(0, { Core.reset with run := .running })] }
/-- Lane words for slots 5 and 99. -/
def word5 : LaneWord := ⟨List.replicate 64 7, 3, false, 0, false, false, 5, 1⟩
def word99 : LaneWord := ⟨List.replicate 64 8, 3, false, 0, false, false, 99, 0⟩
theorem witness_frame_gate :
    (s_frame_gate.part 0).seq[(s_frame_gate.region 0).net.seqPos]? = some ⟨0, true, 2, 1, 0⟩ ∧ (∃ c ∈ s_frame_gate.liveCores 0, (s_frame_gate.core c).late = true) :=
  ⟨by decide +kernel, by decide +kernel⟩
def s_router_link : State := { framed ready RNet.reset with cores := [(1, { Core.reset with router := [0xF62005] })], links := [(14, [word5])] }
theorem witness_router_link :
    ((s_router_link.core 1).router[0]? = some 0xF62005 ∧ (s_router_link.region 0).net.inFrame = true ∧ (s_router_link.region 0).net.held = none ∧ ef 0xF62005 29 27 = 0 ∧ eSlot 0xF62005 < s_router_link.frameLen 0) ∧ ((0xF62005 : BitVec 32).getLsbD 24 = false ∧ ef 0xF62005 19 16 = 6 ∧ s_router_link.linkClosed 1 3 = false ∧ eOut 0xF62005 = 2) ∧ (tget s_router_link.links [] (8 * 1 + 6)).find? (fun x => decide (x.due = 5)) = some word5 ∧ ((s_router_link.region 0).net.exec < (s_router_link.region 0).net.count + eSlot 0xF62005 ∧ s_router_link.seamHold 0 ((s_router_link.region 0).net.count + eSlot 0xF62005) = 0 ∧ word5.data.length = 64) ∧ s_router_link.linkClosed 1 1 = false ∧ s_router_link.neighbor 1 1 = some 2 :=
  ⟨by decide +kernel, by decide +kernel, by decide +kernel, by decide +kernel, by decide +kernel⟩
/-- Another entry of count 5 has fired. -/
def s_router_again : State := { framed ready { RNet.reset with exec := 5, fired := [77] } with cores := [(1, { Core.reset with router := [0xF62005] })], links := [(14, [word5])] }
theorem witness_router_again :
    (s_router_again.region 0).net.exec = (s_router_again.region 0).net.count + eSlot 0xF62005 ∧ (s_router_again.region 0).net.fired ≠ [] ∧ (s_router_again.region 0).net.fired.contains (4096 * 1 + 0) = false :=
  by decide +kernel
def s_router_local : State := { framed ready RNet.reset with cores := [(1, { Core.reset with router := [0xF68063], desc := [⟨false, 99, 0x40, false, 0, 0, 0⟩] })], links := [(14, [word99])], clusters := [(0, { Cluster.reset with banks := 0x3FFFFFF })] }
theorem witness_router_local :
    ((s_router_local.core 1).router[0]? = some 0xF68063 ∧ (s_router_local.region 0).net.inFrame = true ∧ (s_router_local.region 0).net.held = none ∧ ef 0xF68063 29 27 = 0 ∧ eSlot 0xF68063 < s_router_local.frameLen 0) ∧ (eOut 0xF68063 = 8 ∧ (0xF68063 : BitVec 32).getLsbD 26 = false ∧ (0xF68063 : BitVec 32).getLsbD 25 = false ∧ (0xF68063 : BitVec 32).getLsbD 24 = false ∧ s_router_local.linkClosed 1 3 = false) ∧ (tget s_router_local.links [] (8 * 1 + 6)).find? (fun x => decide (x.due = 99)) = some word99 ∧ (s_router_local.core 1).desc.find? (fun x => !x.send && decide (x.slot = 99) && (decide (0 = 0) || x.two) && !(x.done.testBit 0)) = some ⟨false, 99, 0x40, false, 0, 0, 0⟩ ∧ ((s_router_local.region 0).net.exec < (s_router_local.region 0).net.count + eSlot 0xF68063 ∧ s_router_local.seamHold 0 ((s_router_local.region 0).net.count + eSlot 0xF68063) = 0 ∧ word99.data.length = 64) ∧ s_router_local.padAnswers 1 0x40 64 :=
  ⟨by decide +kernel, by decide +kernel, by decide +kernel, by decide +kernel, by decide +kernel, by unfold State.padAnswers State.bytesAnswer; decide +kernel⟩
def s_seam_hold : State := framed ready { RNet.reset with held := some 5, stalls := [(0, 0xFFFFFFFF)] }
/-- A packet of core 1 on VC1 to logical core (3, 0), its head sent. -/
def sendOne : TreeSend := ⟨1, 0x47, 2, 1, 3, false, false, false, 4, 0⟩
/-- Its second flit at the cluster port. -/
def flitOne : Flit :=
  { sw := 0, from_ := 10001, prev := 0, inLane := 0, lane := 0, pid := 4, src := 1, vc := 1, typ := 0, part := 0, len := 2, idx := 1, tail := true
    dest := 3, grp := false, act := false, aux := 0, shadow := 0, sys := false, seqno := 0, data := List.replicate 64 5, crcErr := 0, bad := false }
/-- Its head, as a node has passed it on. -/
def headOne : Flit := { flitOne with idx := 0, tail := false }
theorem witness_seam_hold : (s_seam_hold.region 0).net.held = some 5 ∧ s_seam_hold.holdClear 0 = true := by decide +kernel
def s_tree_inject : State := { onRegion ready with cores := [(1, { Core.reset with sends := [sendOne], pad := (List.range 64).map fun i => (0x80 + i, 5) })], clusters := [(0, { Cluster.reset with banks := 0x3FFFFFF })], tree := { State.reset.tree with paths := [⟨0, headOne, [1024]⟩] } }
theorem witness_tree_inject :
    (s_tree_inject.nodeUp 0 = true ∧ (s_tree_inject.core 1).sends.find? (fun x => decide (x.vc = 1)) = some sendOne ∧ s_tree_inject.tree.room 0 10001 0 1 = true) ∧ (∀ x ∈ (s_tree_inject.core 1).sends, laneOrder x.vc false < laneOrder 1 false → s_tree_inject.tree.room 0 10001 0 x.vc = false) ∧ s_tree_inject.tree.paths.find? (fun x => decide (x.sw = 0) && decide (x.head.pid = 4)) = some ⟨0, headOne, [1024]⟩ ∧ ((headOne.grp = false ∨ headOne.typ ≠ 1) ∧ (sendOne.grp = false ∨ sendOne.red = false ∨ 1 ≠ 1)) ∧ s_tree_inject.padAnswers 1 ((sendOne.addr / 64 * 64 + 64 * sendOne.sent) % 0x100000) 64 :=
  ⟨by decide +kernel, by decide +kernel, by decide +kernel, by decide +kernel, by unfold State.padAnswers State.bytesAnswer; decide +kernel⟩
def s_tree_inject_head : State := { onRegion ready with cores := [(1, { Core.reset with sends := [{ sendOne with sent := 0 }] })], clusters := [(0, { Cluster.reset with banks := 0x3FFFFFF })] }
theorem witness_tree_inject_head :
    (s_tree_inject_head.nodeUp 0 = true ∧ (s_tree_inject_head.core 1).sends.find? (fun x => decide (x.vc = 1)) = some { sendOne with sent := 0 } ∧ s_tree_inject_head.tree.room 0 10001 0 1 = true) ∧ (∀ x ∈ (s_tree_inject_head.core 1).sends, laneOrder x.vc false < laneOrder 1 false → s_tree_inject_head.tree.room 0 10001 0 x.vc = false) ∧ s_tree_inject_head.padAnswers 1 ((sendOne.addr / 64 * 64 + 64 * 0) % 0x100000) 64 :=
  ⟨by decide +kernel, by decide +kernel, by unfold State.padAnswers State.bytesAnswer; decide +kernel⟩
def s_tree_forward : State := { onRegion ready with tree := { State.reset.tree with flits := [{ headOne with sw := 1024, from_ := 0 }] } }
theorem witness_tree_forward :
    (s_tree_forward.nodeUp 1024 = true ∧ s_tree_forward.tree.crossing 1024 1 = some { headOne with sw := 1024, from_ := 0 }) ∧ headOne.grp = false ∧ headOne.typ < 6 ∧ headOne.crcErr = 0 :=
  ⟨by decide +kernel, by decide +kernel⟩
def s_tree_body : State := { onRegion ready with tree := { State.reset.tree with flits := [{ flitOne with sw := 1024, from_ := 0 }], paths := [⟨1024, headOne, [0]⟩] } }
theorem witness_tree_body :
    (s_tree_body.nodeUp 1024 = true ∧ s_tree_body.tree.crossing 1024 1 = some { flitOne with sw := 1024, from_ := 0 }) ∧ s_tree_body.tree.paths.find? (fun x => decide (x.sw = 1024) && decide (x.head.pid = 4)) = some ⟨1024, headOne, [0]⟩ ∧ (headOne.typ < 6 ∧ (headOne.grp = false ∨ headOne.typ ≠ 1)) :=
  ⟨by decide +kernel, by decide +kernel, by decide +kernel⟩
/-- The hosts of the upper switches have power. -/
def s_tree_root : State := { onRegion ready with regions := [(0, running)] ++ ((sortK hostRegions).map fun r => (r, { Region.reset with pwr := { RPower.reset with state := 2 } })), tree := { State.reset.tree with flits := [{ headOne with sw := 1097, from_ := 1088 }] } }
theorem witness_tree_root :
    s_tree_root.nodeUp 1097 = true ∧ s_tree_root.tree.crossing 1097 1 = some { headOne with sw := 1097, from_ := 1088 } :=
  by decide +kernel
def s_tree_port : State := { onRegion ready with tree := { State.reset.tree with flits := [{ headOne with sw := 0, from_ := 1024 }] }, cores := [(3, { Core.reset with inbox1 := 0x84 })] }
theorem witness_tree_port :
    (s_tree_port.nodeUp 0 = true ∧ s_tree_port.tree.crossing 0 1 = some { headOne with sw := 0, from_ := 1024 }) ∧ ((s_tree_port.region 0).part = some headOne.part ∧ headOne.vc = 1 ∧ headOne.typ < 4 ∧ s_tree_port.physAt (headOne.dest % 256) (headOne.dest / 256 % 256) = 3 ∧ (s_tree_port.core 3).inbox1.getLsbD 7 = true) ∧ s_tree_port.tree.paths = [] ∧ headOne.crcErr = 0 ∧ headOne.grp = false ∧ ¬(headOne.typ = 0 ∧ headOne.vc = 2 ∧ headOne.aux = 1) :=
  ⟨by decide +kernel, by decide +kernel, by decide +kernel⟩
def s_tree_port_red : State := { onRegion ready with tree := { State.reset.tree with flits := [{ headOne with sw := 0, from_ := 1024, vc := 2, aux := 1 }] }, cores := [(3, { Core.reset with inbox2 := 0x84 })] }
def s_tree_delivery : State := { onRegion ready with tree := { State.reset.tree with deliver := [{ flitOne with dest := 3, aux := 4 }] }, cores := [(3, { Core.reset with run := .running, circ := [(20, ⟨0x100, 128, 64, 0⟩)] })], clusters := [(0, { Cluster.reset with banks := 0x3FFFFFF })] }
/-- An unacknowledged packet. -/
def ackOne : AckWait := ⟨20100, 4, 2, 0x8001, 0, false, 0, [List.replicate 64 1, List.replicate 64 2], 9, 0, 4000⟩
theorem witness_tree_delivery :
    (s_tree_delivery.core 3).run = .running ∧ (((s_tree_delivery.core 3).circOf 1 4).fill + 64 ≤ ((s_tree_delivery.core 3).circOf 1 4).size ∧ flitOne.data.length = 64) ∧ (s_tree_delivery.nextDelivery 3 = some { flitOne with dest := 3, aux := 4 } ∧ flitOne.crcErr = 0 ∧ flitOne.bad = false) ∧ (s_tree_delivery.core 3).circOff (s_tree_delivery.cluster (3 / 72)).banks 1 4 ((s_tree_delivery.core 3).circOf 1 4).head 64 = none ∧ ((s_tree_delivery.core 3).circOf 1 4).head + 64 ≤ 2 ^ 21 :=
  ⟨by decide +kernel, by decide +kernel, by decide +kernel, by decide +kernel, by decide +kernel⟩
def s_tree_ack : State := { State.reset with tree := { State.reset.tree with acks := [ackOne, { ackOne with seqno := 8 }], ackIn := [9] } }
theorem witness_tree_ack : s_tree_ack.tree.ackIn.contains 9 = true := by decide +kernel
def s_tree_resend : State := { State.reset with tree := { State.reset.tree with acks := [{ ackOne with sends := 2 }] }, clk := { State.reset.clk with wtime := 4000 } }
theorem witness_tree_resend :
    s_tree_resend.tree.acks.find? (fun a => decide (a.seqno = 9)) = some { ackOne with sends := 2 } ∧ ackOne.due ≤ s_tree_resend.clk.wtime :=
  ⟨by decide +kernel, by decide +kernel⟩
def s_tree_resent : State := { State.reset with tree := { State.reset.tree with acks := [{ ackOne with sends := 3 }] }, clk := { State.reset.clk with wtime := 4000 } }
theorem witness_tree_resent :
    s_tree_resent.tree.acks.find? (fun a => decide (a.seqno = 9)) = some { ackOne with sends := 3 } ∧ ackOne.due ≤ s_tree_resent.clk.wtime :=
  by decide +kernel
def s_barrier_combines : State := { onRegion ready with tree := { State.reset.tree with barMsgs := [⟨0, 10000, 0, 3, true, false, 12, false⟩] } }
theorem witness_barrier_combines :
    (s_barrier_combines.nodeUp 0 = true ∧ s_barrier_combines.tree.barMsgs.find? (fun m => decide (m.sw = 0)) = some ⟨0, 10000, 0, 3, true, false, 12, false⟩) ∧ 0 + 1 < s_barrier_combines.barExpect 0 0 :=
  ⟨by decide +kernel, by decide +kernel⟩
def s_barrier_rises : State := { onRegion ready with tree := { State.reset.tree with barMsgs := [⟨0, 10000, 0, 3, false, false, 5, false⟩], bars := [⟨0, 0, 3, 63, true, false, 12, false⟩] } }
theorem witness_barrier_rises :
    s_barrier_rises.tree.barMsgs.find? (fun m => decide (m.sw = 0)) = some ⟨0, 10000, 0, 3, false, false, 5, false⟩ ∧ s_barrier_rises.barExpect 0 0 ≤ 63 + 1 ∧ 0 ≠ s_barrier_rises.apex 0 :=
  ⟨by decide +kernel, by decide +kernel⟩
def s_barrier_releases : State := { onRegion ready with tree := { State.reset.tree with barMsgs := [⟨1024, 15, 0, 3, false, false, 5, false⟩], bars := [⟨1024, 0, 3, 15, true, false, 12, false⟩] } }
theorem witness_barrier_releases :
    s_barrier_releases.tree.barMsgs.find? (fun m => decide (m.sw = 1024)) = some ⟨1024, 15, 0, 3, false, false, 5, false⟩ ∧ s_barrier_releases.barExpect 0 1024 ≤ 15 + 1 ∧ 1024 = s_barrier_releases.apex 0 :=
  ⟨by decide +kernel, by decide +kernel⟩
def s_switch_out : State := { State.reset with regions := (sortK hostRegions).map fun r => (r, { Region.reset with pwr := { RPower.reset with state := 2 } }) }
theorem witness_switch_out : s_switch_out.swUp 9 = true ∧ s_switch_out.swUp (pairOf 9) = true := by decide +kernel
def s_switch_drained : State := { State.reset with tree := { State.reset.tree with hosts := [(9, 1)] } }
theorem witness_switch_drained : tget s_switch_drained.tree.hosts 0 9 = 1 ∧ s_switch_drained.swEmpty (1088 + 9) = true := by decide +kernel
def s_switch_return : State := { State.reset with tree := { State.reset.tree with hosts := [(0, 2)] }, regions := [(9, { Region.reset with pwr := { RPower.reset with state := 2 } })] }
theorem witness_switch_return : tget s_switch_return.tree.hosts 0 0 = 2 ∧ s_switch_return.vcoreUp (hostRegions.getD 0 0) = true := by decide +kernel

/-! ### Steps, faults and repair -/

/-- A request of three history tokens with one spin page. -/
def reqOne : Request := { Request.reset with used := true, state := .spin, hist := [5, 6, 7], turnLen := 2, turnGot := 2, committed := 2, slot := true, pages := [⟨0, 0, 1, true, 2⟩], par := { noParams with adapter := 0xFFFF, width := 1, maxNew := 9 } }
def serving (x : Part) (r : Request) : State := { onRegion x with srv := { State.reset.srv with reqs := [(0, r)] } }
def s_launch_spin : State := serving ready reqOne
theorem witness_launch_spin :
    (s_launch_spin.mayLaunch 0 = true ∧ (s_launch_spin.part 0).returnReq = false) ∧ (((s_launch_spin.restoreBursts 0).part 0).state = .ready ∧ ((s_launch_spin.restoreBursts 0).part 0).erefPend = false ∧ ((s_launch_spin.restoreBursts 0).part 0).lullNeed = 0 ∧ ((s_launch_spin.restoreBursts 0).part 0).tunes = [] ∧ ((s_launch_spin.restoreBursts 0).part 0).tuned = false) ∧ (((s_launch_spin.restoreBursts 0).allocReshard 0).formSpin 0).2 ≠ [] ∧ (((s_launch_spin.restoreBursts 0).allocReshard 0).formIngest 0).2 = [] :=
  ⟨by decide +kernel, by decide +kernel, by decide +kernel, by decide +kernel⟩
def s_launch_ingest : State := serving ready { reqOne with state := .queued, committed := 0, pages := [], slot := false }
theorem witness_launch_ingest :
    (s_launch_ingest.mayLaunch 0 = true ∧ (s_launch_ingest.part 0).returnReq = false) ∧ (((s_launch_ingest.restoreBursts 0).part 0).state = .ready ∧ ((s_launch_ingest.restoreBursts 0).part 0).erefPend = false ∧ ((s_launch_ingest.restoreBursts 0).part 0).lullNeed = 0 ∧ ((s_launch_ingest.restoreBursts 0).part 0).tunes = [] ∧ ((s_launch_ingest.restoreBursts 0).part 0).tuned = false) ∧ (((s_launch_ingest.restoreBursts 0).allocReshard 0).formIngest 0).2 ≠ [] ∧ (((s_launch_ingest.restoreBursts 0).allocReshard 0).formSpin 0).2 = [] :=
  ⟨by decide +kernel, by decide +kernel, by decide +kernel, by decide +kernel⟩
/-- The step in flight waits for its lists, which are acknowledged. -/
def s_launch_lists : State := serving { ready with phase := .lists, items := [⟨0, 1, 2⟩] } reqOne
theorem witness_launch_lists :
    ((s_launch_lists.part 0).phase = .lists ∧ (∀ a ∈ s_launch_lists.tree.failed, a.part ≠ 0) ∧ s_launch_lists.listsOut 0 = false ∧ s_launch_lists.mayRun 0 = true) :=
  by decide +kernel
def s_launch_lists_wait : State := { serving { ready with phase := .lists, items := [⟨0, 1, 2⟩] } reqOne with tree := { State.reset.tree with acks := [ackOne] } }
def s_launch_applied : State := serving { ready with applying := 2 } reqOne
theorem tget_same {α : Type} (d v : α) (f : Nat → Nat) (l : List Nat) (k : Nat) (h : k ∈ l.map f) : tget (l.map fun i => (f i, v)) d k = v := by
  induction l with
  | nil => cases h
  | cons a l ih =>
    simp only [List.map_cons, tget]
    split
    · rfl
    · rename_i n
      exact ih ((List.mem_cons.mp h).resolve_left fun e => n e.symm)
/-- Place of logical core i of region 0. -/
def place (i : Nat) : Nat := 72 * (i / 64) + 9 * (i % 64 / 8) + i % 8
/-- Every core of region 0 has reached END. -/
def endedCores (n : Nat) : Table Core := (List.range n).map fun i => (place i, { Core.reset with run := .ended })
theorem endedCores_run {n c : Nat} (h : c ∈ (List.range n).map place) : (tget (endedCores n) Core.reset c).run = .ended := by
  rw [endedCores, tget_same Core.reset _ place _ c h]
def s_commit : State := { serving { ready with phase := .running, items := [⟨0, 1, 2⟩] } reqOne with cores := endedCores 1024 }
theorem commit_ended (c : Nat) (h : c ∈ s_commit.runners 0) : (s_commit.core c).run = .ended := by
  have e : s_commit.partRegions 0 = [0] := by decide +kernel
  have g : s_commit.regionCores 0 = (List.range 1024).map place := by decide +kernel
  simp only [State.runners, e, List.flatMap_cons, List.flatMap_nil, List.append_nil, State.liveCores, g, List.mem_filter] at h
  have k : s_commit.core c = tget (endedCores 1024) Core.reset c := by simp only [State.core, s_commit]
  rw [k]
  exact endedCores_run h.1.1
theorem witness_step_commit : s_commit.mayCommit 0 = true ∧ (s_commit.part 0).tuneRun = 0
    ∧ ∀ y ∈ (s_commit.part 0).items.zip [(⟨[[]], [], [], [], 0, 0⟩ : CommitItem)], fits (s_commit.part 0).ingest y.1 y.2 = true := by
  refine ⟨?_, by decide, by decide +kernel⟩
  have a : (s_commit.part 0).phase = .running ∧ (s_commit.part 0).faults = [] := by decide +kernel
  simp only [State.mayCommit, a, decide_true, List.isEmpty_nil, Bool.true_and, Bool.and_self, List.all_eq_true]
  exact fun c h => decide_eq_true (commit_ended c h)
theorem witness_launch_applied :
    (s_launch_applied.part 0).phase ≠ .lists ∧ (s_launch_applied.part 0).state = .ready ∧ 1 < (s_launch_applied.part 0).applying :=
  by decide +kernel
def s_replay : State := onRegion { ready with phase := .replay, runNo := 2, items := [⟨0, 1, 2⟩] }
theorem witness_replay : (s_replay.part 0).phase = .replay ∧ (s_replay.part 0).faults = [] ∧ (s_replay.part 0).repair = none := by decide +kernel
def s_reshard : State := serving ready { reqOne with reshard := true, pages := [⟨9, 1, 1, true, 64⟩, ⟨8, 1, 2, true, 2⟩], target := [(0, 1)] }
theorem witness_reshard :
    (s_reshard.req 0).live = true ∧ (s_reshard.req 0).reshard = true ∧ (s_reshard.req 0).shardLeft = 0 ∧ (s_reshard.req 0).target ≠ [] ∧ (s_reshard.req 0).target.length = ((s_reshard.req 0).pages.filter fun g => decide (g.state = 2)).length :=
  by decide +kernel
def s_abandon : State := onRegion { ready with phase := .running, faults := [(0x01, 65536)] }
theorem witness_abandon : (s_abandon.part 0).faults ≠ [] ∧ (s_abandon.part 0).phase = .running := by decide +kernel
def s_rerun : State := onRegion { ready with phase := .fault, reruns := 3 }
theorem witness_rerun :
    (s_rerun.part 0).phase = .fault ∧ (s_rerun.part 0).held = 0 ∧ (s_rerun.part 0).repair = none ∧ (s_rerun.part 0).reruns < 4 ∧ (s_rerun.part 0).bad = [] :=
  by decide +kernel
def s_rerun_down : State := onRegion { ready with phase := .fault, reruns := 4 }
theorem witness_rerun_down :
    (s_rerun_down.part 0).phase = .fault ∧ (s_rerun_down.part 0).held = 0 ∧ (s_rerun_down.part 0).repair = none ∧ 4 ≤ (s_rerun_down.part 0).reruns :=
  by decide +kernel
def s_watchdog : State := onRegion { ready with phase := .running }
theorem witness_watchdog :
    ((s_watchdog.part 0).phase = .running ∧ (s_watchdog.part 0).wdogs = 0) ∧ (∃ c ∈ s_watchdog.runners 0, (s_watchdog.core c).run ≠ .ended) ∧ (s_watchdog.part 0).ranAt + usecs (s_watchdog.part 0).wdog ≤ s_watchdog.clk.wtime :=
  ⟨by decide +kernel, by decide +kernel, by decide +kernel⟩
def s_watchdog_again : State := onRegion { ready with phase := .running, wdogs := 1 }
theorem witness_watchdog_again :
    ((s_watchdog_again.part 0).phase = .running ∧ 1 ≤ (s_watchdog_again.part 0).wdogs) ∧ (∃ c ∈ s_watchdog_again.runners 0, (s_watchdog_again.core c).run ≠ .ended) ∧ (s_watchdog_again.part 0).ranAt + usecs (s_watchdog_again.part 0).wdog ≤ s_watchdog_again.clk.wtime :=
  ⟨by decide +kernel, by decide +kernel, by decide +kernel⟩
def s_heartbeat : State := { onRegion ready with cores := [(1, { Core.reset with run := .running, beat := true }), (2, { Core.reset with run := .running })], regions := [(0, { running with net := { RNet.reset with exec := 8191 } })] }
/-- A repair of core 7 declared. -/
def rep (n : Nat) : Repair := ⟨5, [(7, 1, false)], n, n / 2⟩
theorem witness_heartbeat :
    (s_heartbeat.liveCores 0).Nodup ∧ (∀ c ∈ ([2] : List Nat), (s_heartbeat.region 0).net.exec - (s_heartbeat.core c).beatAt < 8192) ∧ (s_heartbeat.core 1).run = .running ∧ (s_heartbeat.core 1).dead = false :=
  ⟨nodup_of_rising (by decide +kernel), by decide +kernel, by decide +kernel⟩
def s_repair_freeze : State := { onRegion { ready with repair := some (rep 0), held := 1, phase := .running } with regions := [(0, { running with net := { RNet.reset with inFrame := true } })] }
theorem witness_repair_freeze :
    (s_repair_freeze.part 0).repair = some (rep 0) ∧ (rep 0).stage = 0 ∧ (s_repair_freeze.part 0).applying = 0 ∧ (s_repair_freeze.part 0).doff.state ≠ 3 ∧ s_repair_freeze.clockDown 0 = false ∧ s_repair_freeze.stopped 0 = false ∧ (s_repair_freeze.part 0).held ≠ 0 :=
  by decide +kernel
def s_repair_shift : State := onRegion { ready with repair := some (rep 0), held := 1 }
theorem witness_repair_shift :
    (s_repair_shift.part 0).repair = some (rep 0) ∧ (rep 0).dead = [(7, 1, false)] ∧ (s_repair_shift.part 0).applying = 0 ∧ (s_repair_shift.part 0).doff.state ≠ 3 ∧ s_repair_shift.clockDown 0 = false ∧ s_repair_shift.stopped 0 = true ∧ (s_repair_shift.part 0).held ≠ 0 :=
  by decide +kernel
def s_repair_copy : State := { onRegion { ready with repair := some (rep 1), held := 1 } with vaults := [(7, { Vault.reset with data := [(3, 4)] })] }
theorem witness_repair_copy :
    ((∀ v, (s_repair_copy.core v).vq = [])) ∧ ((s_repair_copy.part 0).repair = some (rep 1) ∧ (rep 1).dead = [(7, 1, false)] ∧ (rep 1).copied = 0 ∧ s_repair_copy.clockDown 0 = false ∧ (s_repair_copy.part 0).bad = [] ∧ (s_repair_copy.part 0).items = []) ∧ ((∀ v, (s_repair_copy.vault v).chk = [])) :=
  ⟨(fun v => by unfold State.core s_repair_copy onRegion tget; rfl), by decide +kernel, (fun v => by unfold State.vault s_repair_copy tget; split <;> rfl)⟩
def s_vault_restore : State := onRegion { ready with repair := some (rep 2), held := 1, repairs := 0xFFFF }
theorem witness_vault_restore :
    ((s_vault_restore.part 0).repair = some (rep 2) ∧ (rep 2).stage = 2 ∧ (rep 2).copied = (rep 2).dead.length ∧ (∀ e ∈ (rep 2).dead, e.2.2 = false) ∧ (s_vault_restore.part 0).bad = [] ∧ (s_vault_restore.part 0).state = .ready) :=
  by decide +kernel
def s_agent_miss : State := { onRegion { ready with phase := .running } with boot := { State.reset.boot with restarted := [(0, 0)] }, clk := { State.reset.clk with wtime := secs 3600 + 1 } }
theorem witness_agent_miss :
    (s_agent_miss.boot.restarted.any fun y => decide (y.1 = 0) && decide (s_agent_miss.clk.wtime ≤ y.2 + secs 3600)) = false ∧ (s_agent_miss.comp 2).state ≠ 4 ∧ (s_agent_miss.comp 2).state ≠ 5 ∧ (s_agent_miss.region 0).part = some 0 :=
  ⟨by decide +kernel, by decide +kernel⟩
def s_agent_miss_again : State := { onRegion ready with boot := { State.reset.boot with restarted := [(0, 0)] }, clk := { State.reset.clk with wtime := secs 3600 } }
/-- Steward 0 active, steward 1 in a state. -/
def stewards (a b act : Nat) : State := { State.reset with boot := { State.reset.boot with start := 4, stw := { State.reset.boot.stw with st0 := a, st1 := b, active := act } } }
theorem witness_agent_miss_again :
    (s_agent_miss_again.boot.restarted.any fun y => decide (y.1 = 0) && decide (s_agent_miss_again.clk.wtime ≤ y.2 + secs 3600)) = true ∧ (s_agent_miss_again.comp 2).state ≠ 4 ∧ (s_agent_miss_again.comp 2).state ≠ 5 :=
  ⟨by decide +kernel, by decide +kernel⟩
def s_failover : State := stewards 1 2 0
theorem witness_failover :
    (stewards 1 2 0).boot.stw.none = false ∧ (stewards 1 2 0).boot.stw.active = 0 ∧ (stewards 1 2 0).boot.stw.st1 = 2 ∧ ((stewards 1 2 0).comp 1).state ≠ 5 :=
  by decide +kernel
def s_failover_back : State := stewards 2 1 1
theorem witness_failover_back :
    (stewards 2 1 1).boot.stw.none = false ∧ (stewards 2 1 1).boot.stw.active = 1 ∧ (stewards 2 1 1).boot.stw.st0 = 2 ∧ ((stewards 2 1 1).comp 1).state ≠ 5 :=
  by decide +kernel
def s_no_steward : State := stewards 1 3 0
theorem witness_no_steward :
    (stewards 1 3 0).boot.stw.none = false ∧ (stewards 1 3 0).boot.stw.active = 0 ∧ (stewards 1 3 0).boot.stw.st0 = 1 ∧ (stewards 1 3 0).boot.stw.st1 ≠ 2 :=
  by decide +kernel

/-! ### Sessions and messages -/

/-- Interface 0 up and enabled, WTIME 2 s. -/
def online : State := { State.reset with eth := { State.reset.eth with link := 0x10001, ifs := [(0, { Iface.reset with en := true }), (16, { Iface.reset with en := true })] }, clk := { State.reset.clk with wtime := secs 2 } }
/-- A datagram's arrival by interface 0. -/
def via : Arrive := ⟨0, 0xA000001, none, 64⟩
/-- INIT of nonce 9 as operator. -/
def initBody : List Byte := List.replicate 31 0 ++ [9, 1] ++ List.replicate 1215 0
/-- A half-open handshake. -/
def halfOpen (n role : Nat) : HalfOpen := { hnonce := n, ses := 7, role := role, tenant := 3, idle := 30, ss := 0, th := 0, at_ := secs 1 }
theorem witness_accepts :
    online.accepts via.iface via.tag = true ∧ initBody.length = 1248 ∧ leNat ((initBody.drop 32).take 1).reverse = 1 ∧ leNat ((initBody.drop 33).take 1).reverse = 0 ∧ leNat ((initBody.drop 40).take 24).reverse = 0 ∧ leNat ((initBody.drop 0).take 32).reverse = 9 :=
  ⟨by decide +kernel, by decide +kernel, by decide +kernel⟩
def s_init_again : State := { online with eth := { online.eth with half := [halfOpen 9 1] } }
theorem witness_init_again : s_init_again.eth.half.find? (fun h => decide (h.hnonce = 9)) = some (halfOpen 9 1) := by decide +kernel
def s_init_new : State := { online with eth := { online.eth with half := (List.range 63).map fun i => halfOpen (i + 100) 1 } }
theorem witness_init_new : s_init_new.eth.half.find? (fun h => decide (h.hnonce = 9)) = none ∧ s_init_new.eth.half.length < 64 := by decide +kernel
def s_init_full : State := { online with eth := { online.eth with half := (List.range 64).map fun i => halfOpen (i + 100) 1 } }
/-- A host's public key. -/
def hostKey : List Byte := List.replicate 1952 0
/-- The owner's entry for it. -/
def ownerEntry : Principal := { valid := true, role := 2, tenant := 0, mask := 0xFFFF, digest := dig hostKey }
def s_prove : State := { online with eth := { online.eth with half := [halfOpen 9 2] }, boot := { online.boot with principals := [(0, ownerEntry)] } }
theorem witness_prove : s_prove.accepts via.iface via.tag = true ∧ s_prove.eth.half.find? (fun h => decide (h.ses = 7)) = some (halfOpen 9 2)
    ∧ s_prove.clk.wtime ≤ (halfOpen 9 2).at_ + secs 1 ∧ hostKey.length = 1952 ∧ s_prove.principal (dig hostKey) (halfOpen 9 2).role (halfOpen 9 2).tenant = some ownerEntry
    ∧ s_prove.eth.sessions.length < 4096 ∧ s_prove.boot.owner = none :=
  ⟨by decide +kernel, by decide +kernel, by decide +kernel, by decide +kernel, by simp [State.principal, s_prove, ownerEntry, halfOpen], by decide +kernel, by decide +kernel⟩
theorem witness_init_full : s_init_full.eth.half.find? (fun h => decide (h.hnonce = 9)) = none ∧ 64 ≤ s_init_full.eth.half.length := by decide +kernel
def s_prove_con : State := s_prove
def s_prove_refused : State := { online with eth := { online.eth with half := [halfOpen 9 0] } }
theorem witness_prove_refused :
    (s_prove_refused.eth.half.find? (fun h => decide (h.ses = 7)) = some (halfOpen 9 0) ∧ s_prove_refused.clk.wtime ≤ (halfOpen 9 0).at_ + secs 1) ∧ s_prove_refused.principal (dig hostKey) (halfOpen 9 0).role (halfOpen 9 0).tenant = none :=
  ⟨by decide +kernel, rfl⟩
def s_handshake_timeout : State := { online with eth := { online.eth with half := [halfOpen 9 0] } }
/-- Message cls.typ of session 7 to be processed, by a role. -/
def told (role cls typ : Nat) : State := opened online (hear (ses role) cls typ)
theorem witness_handshake_timeout :
    s_handshake_timeout.eth.half.find? (fun h => decide (h.ses = 7)) = some (halfOpen 9 0) ∧ (halfOpen 9 0).at_ + secs 1 ≤ s_handshake_timeout.clk.wtime :=
  by decide +kernel
def s_ping : State := told 0 0 5
theorem witness_ping : Delivered (msg 0) 0 5 0 s_ping (hear (ses 0) 0 5) := delivered_of (by decide +kernel)
def s_close : State := told 0 0 6
theorem witness_close : Delivered (msg 0) 0 6 0 s_close (hear (ses 0) 0 6) := delivered_of (by decide +kernel)
def s_rekey : State := told 0 0 7
theorem witness_rekey :
    Delivered (msg 1184) 0 7 1184 s_rekey (hear (ses 0) 0 7) ∧ (List.replicate 1184 (0 : Byte)).length = 1184 :=
  ⟨delivered_of (by decide +kernel), by decide +kernel⟩
def s_rekey_answer : State := opened online { hear (ses 0) 0 7 with rekeying := some [1] }
/-- A message of the device under way. -/
def outOne : OutMsg := { seq := 4, cls := 4, typ := 2, reply := false, more := false, corr := 0, status := 0, part := 0, body := [], sends := 0, first := secs 1, due := secs 2, sent := true }
theorem witness_rekey_answer :
    Delivered (msg 1088) 0 7 1088 s_rekey_answer { hear (ses 0) 0 7 with rekeying := some [1] } ∧ ({ hear (ses 0) 0 7 with rekeying := some [1] } : Session).rekeying = some [1] ∧ (List.replicate 1088 (0 : Byte)).length = 1088 :=
  ⟨delivered_of (by decide +kernel), by decide +kernel⟩
def s_session_lost : State := opened online { ses 0 with tx := [outOne] }
theorem witness_session_lost :
    s_session_lost.session 7 = some { ses 0 with tx := [outOne] } ∧ outOne ∈ [outOne] ∧ outOne.sent = true ∧ outOne.first + secs 1 ≤ s_session_lost.clk.wtime :=
  by decide +kernel
def s_session_idle : State := opened online { ses 0 with idle := 2 }
/-- A datagram of session 7. -/
def gram (flags : BitVec 8) (seq ack : Nat) : Dgram := { iface := 0, addr := 5, tag := none, prio := 0, ce := false, frag := false, ver := 1, cls := 0, typ := 5, flags := flags, ses := 7, seq := seq, ack := ack, xmit := 1, corr := 0, len := 0, status := 0, part := 0, window := 32, rsv := 0, body := 0, key := 1 }
theorem witness_session_idle :
    s_session_idle.session 7 = some { ses 0 with idle := 2 } ∧ (ses 0).lastRx + secs 2 ≤ s_session_idle.clk.wtime :=
  by decide +kernel
def s_ackonly : State := opened online { ses 0 with tx := [outOne, { outOne with seq := 5 }, { outOne with seq := 6 }] }
theorem witness_ackonly :
    s_ackonly.session 7 = some { ses 0 with tx := [outOne, { outOne with seq := 5 }, { outOne with seq := 6 }] } ∧ (ses 0).xmit + 3 + 2 < 2 ^ 30 ∧ s_ackonly.accepts (gram 6 0 5).iface (gram 6 0 5).tag = true ∧ (gram 6 0 5).frag = false ∧ dgramOk (gram 6 0 5) = true ∧ (ses 0).opens (gram 6 0 5) s_ackonly.clk.wtime = true ∧ (gram 6 0 5).flags.getLsbD 1 = true :=
  ⟨by decide +kernel, by decide +kernel, by decide +kernel⟩
def s_ackonly_management : State := opened online (ses 0)
theorem witness_ackonly_management :
    (s_ackonly_management.session 7 = some (ses 0) ∧ (ses 0).role = 0) ∧ s_ackonly_management.accepts ({ gram 6 0 5 with iface := 16 } : Dgram).iface ({ gram 6 0 5 with iface := 16 } : Dgram).tag = true ∧ ({ gram 6 0 5 with iface := 16 } : Dgram).frag = false ∧ dgramOk { gram 6 0 5 with iface := 16 } = true ∧ (ses 0).opens { gram 6 0 5 with iface := 16 } s_ackonly_management.clk.wtime = true :=
  ⟨by decide +kernel, by decide +kernel⟩
def s_datagram : State := opened online (ses 0)
theorem witness_datagram :
    (s_datagram.session 7 = some (ses 0) ∧ (ses 0).ahead = []) ∧ (s_datagram.accepts (gram 4 2 0).iface (gram 4 2 0).tag = true ∧ (gram 4 2 0).frag = false ∧ dgramOk (gram 4 2 0) = true ∧ (ses 0).opens (gram 4 2 0) s_datagram.clk.wtime = true ∧ (gram 4 2 0).flags.getLsbD 1 = false) ∧ ((gram 4 2 0).seq = seqNext (ses 0).rcvd ∧ awayOf ((ses 0).ready ++ [((gram 4 2 0).seq, (gram 4 2 0).cls, (gram 4 2 0).typ)]) = 0) ∧ (gram 4 2 0).xmit < 2 ^ 32 - 1 ∧ (ses 0).xmit + (ses 0).tx.length + 2 < 2 ^ 30 :=
  ⟨by decide +kernel, by decide +kernel, by decide +kernel, by decide +kernel⟩
theorem witness_datagram_wraps : seqNext 0xFFFFFFFF = 1 := by decide +kernel
def s_datagram_again : State := opened online (ses 0)
theorem witness_datagram_again :
    (s_datagram_again.session 7 = some (ses 0) ∧ inWindow (ses 0).rcvd (gram 4 1 0).seq = false ∧ (gram 4 1 0).seq = (ses 0).rcvd) ∧ s_datagram_again.accepts (gram 4 1 0).iface (gram 4 1 0).tag = true ∧ (gram 4 1 0).frag = false ∧ dgramOk (gram 4 1 0) = true ∧ (ses 0).opens (gram 4 1 0) s_datagram_again.clk.wtime = true ∧ (gram 4 1 0).flags.getLsbD 1 = false :=
  ⟨by decide +kernel, by decide +kernel⟩
def s_datagram_dropped : State := opened online (ses 0)
theorem witness_datagram_dropped :
    s_datagram_dropped.session 7 = some (ses 0) ∧ s_datagram_dropped.accepts (gram 0 2 0).iface (gram 0 2 0).tag = true ∧ (gram 0 2 0).frag = false ∧ (gram 0 2 0).flags.getLsbD 1 = false ∧ (ses 0).opens (gram 0 2 0) s_datagram_dropped.clk.wtime = false :=
  by decide +kernel
def s_retransmit : State := opened online { ses 0 with tx := [{ outOne with first := secs 1 + 1 }] }
theorem witness_retransmit :
    s_retransmit.session 7 = some { ses 0 with tx := [{ outOne with first := secs 1 + 1 }] } ∧ [{ outOne with first := secs 1 + 1 }].find? (fun m => decide (m.seq = 4) && m.sent && (ses 0).carries m && decide (m.due ≤ s_retransmit.clk.wtime) && decide (s_retransmit.clk.wtime < m.first + secs 1)) = some { outOne with first := secs 1 + 1 } :=
  ⟨by decide +kernel, by decide +kernel⟩
def s_reg_read : State := told 1 1 1
theorem witness_reg_read :
    Delivered (msg 8) 1 1 8 s_reg_read (hear (ses 1) 1 1) ∧ 256 ≤ 256 ∧ 0x10020 % 4 = 0 :=
  ⟨delivered_of (by decide +kernel), by decide +kernel⟩
def s_reg_write : State := told 1 1 2
theorem witness_reg_write :
    Delivered (msg 12) 1 2 12 s_reg_write (hear (ses 1) 1 2) ∧ (9 : Word).toNat % 8 ≤ 3 ∧ (9 : Word).toNat / 8 % 8 ≤ 3 ∧ (9 : Word).toNat / 8 % 4 ≠ 3 :=
  ⟨delivered_of (by decide +kernel), by decide +kernel⟩
def s_mode_change : State := told 1 1 2
def s_bypass_force : State := { told 1 1 2 with eth := { (told 1 1 2).eth with oeReady := 1 } }
def s_tel_sub : State := told 1 5 1
theorem witness_tel_sub : Delivered (msg 8) 5 1 8 s_tel_sub (hear (ses 1) 5 1) ∧ 0xFFF < 4096 := ⟨delivered_of (by decide +kernel), by decide +kernel⟩
def s_tel_record : State := opened online { ses 1 with telMs := 1, telKinds := 0x801 }
theorem witness_tel_record :
    (s_tel_record.session 7 = some { ses 1 with telMs := 1, telKinds := 0x801 } ∧ (0x801).testBit 11 = true) ∧ tget ({ ses 1 with telMs := 1, telKinds := 0x801 } : Session).telLast 0 11 + msecs (({ ses 1 with telMs := 1, telKinds := 0x801 } : Session).periodOf 11) ≤ s_tel_record.clk.wtime :=
  ⟨by decide +kernel, by decide +kernel⟩
def s_quote : State := told 0 6 1
theorem witness_quote :
    Delivered (msg 40) 6 1 40 s_quote (hear (ses 0) 6 1) ∧ 65535 < 65536 ∧ 1 ≤ 1 :=
  ⟨delivered_of (by decide +kernel), by decide +kernel⟩
def s_identity : State := told 0 6 2
/-- A record of the ring. -/
def evOne : EvRec := { seq := 5, cls := 1, kind := 0, region := 2, cluster := 3, wtime := 4, part := 0, core := 0, lx := 0, ly := 0, step := 0, reqid := 0, spec := [], acked := false }
theorem witness_identity : Delivered (msg 0) 6 2 0 s_identity (hear (ses 0) 6 2) := delivered_of (by decide +kernel)
def s_evt_read : State := { told 1 7 1 with evt := { State.reset.evt with ring := [evOne], head := 6 } }
theorem witness_evt_read :
    Delivered (msg 8) 7 1 8 s_evt_read (hear (ses 1) 7 1) ∧ serialLt s_evt_read.evt.tail s_evt_read.evt.head = true ∧ s_evt_read.evt.tail = 5 :=
  ⟨delivered_of (by decide +kernel), by decide +kernel⟩
def s_evt_sub : State := told 1 7 2
theorem witness_evt_sub : Delivered (msg 8) 7 2 8 s_evt_sub (hear (ses 1) 7 2) := delivered_of (by decide +kernel)

/-! ### Images, loads, doffs, adapters -/

/-- A transfer of session 7 to partition 0. -/
def xferOne : Xfer := { id := 3, ses := 7, kind := 0, target := 0, part := 0, slot := 0xFFFF, hops := 0, total := 0x5000, data := [(0, some 1)], headOk := false, verified := false, holds := false, last := 0 }
/-- A stored object that nothing uses. -/
def objOne : SpoolObj := { id := 9, kind := .bitstream, digest := 77, cards := 1, size := 64, data := [], tenant := 0, gen := 0, stored := 1, lastRead := 0, expires := 0, cur := 0 }
def s_img_start : State := told 1 2 1
/-- Section 7 (VLAY): weights bursts 0 to 99, embedding 100 to 199, adapters 200 to 299, staging 300 to 399. -/
def layout : Section := ⟨7, 0, image 128 [(0, 2, 4), (68, 4, 0), (72, 4, 100), (80, 1, 1), (84, 4, 100), (88, 4, 100), (96, 1, 2), (100, 4, 200), (104, 4, 100), (112, 1, 4), (116, 4, 300), (120, 4, 100)]⟩
def s_img_start_slot : State := { told 1 2 1 with parts := [(0, { ready with cfg := [layout] })] }
theorem witness_img_start_slot : Delivered (msg 16) 2 1 16 s_img_start_slot (hear (ses 1) 2 1) ∧ 255 < (s_img_start_slot.part 0).adaptSlots
    ∧ (tget (s_img_start_slot.part 0).adapt ⟨0, 0⟩ 255).state = 0 :=
  ⟨delivered_of (by decide +kernel), by
    have h : ((s_img_start_slot.part 0).area 2 0).isSome = true := by decide +kernel
    simp only [Part.adaptSlots, h, if_true]; omega, by decide +kernel⟩
theorem witness_img_start :
    Delivered (msg 16) 2 1 16 s_img_start (hear (ses 1) 2 1) ∧ (4 ≤ 4) ∧ (0 ≤ 2) ∧ (15 ≤ 15) ∧ (4 = 2 ↔ 0 = 2) ∧ (msg 16).part ≤ 15 ∧ s_img_start.doldrums = false ∧ s_img_start.openXfers < 32 :=
  ⟨delivered_of (by decide +kernel), by decide +kernel⟩
def s_img_block : State := { told 1 2 2 with xfers := [xferOne] }
theorem witness_img_block :
    Delivered (msg 80) 2 2 (16 + (List.replicate 64 (5 : Byte)).length) s_img_block (hear (ses 1) 2 2) ∧ (s_img_block.xfer 3 = some xferOne ∧ xferOne.ses = (msg 80).ses ∧ xferOne.verified = false ∧ xferOne.headOk = false) ∧ ((0x3FC0 % 64 = 0) ∧ 0x3FC0 + 64 ≤ headBytes xferOne.kind ∧ 0x3FC0 + 64 ≤ xferOne.total ∧ xferOne.conflicts 0x3FC0 (List.replicate 64 5) = false) ∧ (xferOne.put 0x3FC0 (List.replicate 64 5)).have_ 0 (min (headBytes xferOne.kind) xferOne.total) = false :=
  ⟨delivered_of (by decide +kernel), by decide +kernel, by decide +kernel, by decide +kernel⟩
def s_img_cancel : State := { told 1 2 3 with xfers := [xferOne] }
theorem witness_img_cancel :
    Delivered (msg 8) 2 3 8 s_img_cancel (hear (ses 1) 2 3) ∧ s_img_cancel.xfer 3 = some xferOne ∧ xferOne.ses = (msg 8).ses :=
  ⟨delivered_of (by decide +kernel), by decide +kernel⟩
def s_xfer_timeout : State := { State.reset with xfers := [xferOne], clk := { State.reset.clk with wtime := secs 60 } }
theorem witness_xfer_timeout :
    s_xfer_timeout.xfer 3 = some xferOne ∧ xferOne.verified = false ∧ xferOne.last + secs 60 ≤ s_xfer_timeout.clk.wtime :=
  by decide +kernel
def s_spl_list : State := { told 1 2 5 with spl := { State.reset.spl with objs := [objOne, { objOne with id := 10, digest := 5 }] } }
theorem witness_spl_list :
    Delivered (msg 8) 2 5 8 s_spl_list (hear (ses 1) 2 5) ∧ (0 ≤ 1) ∧ (1 ≤ 64) ∧ (64 ≤ 64) :=
  ⟨delivered_of (by decide +kernel), by decide +kernel⟩
def s_spl_delete : State := { told 1 2 6 with spl := { State.reset.spl with objs := [objOne] } }
/-- The table of twelve sections of 64 bytes each. -/
def table : List Byte :=
  (List.range 12).flatMap fun i => leBytes 2 (i + 1) ++ List.replicate 6 0 ++ leBytes 8 (0x4000 + 64 * i) ++ leBytes 8 64 ++ List.replicate 72 0
/-- The head of a full container for region 9 that names the map of an empty SLUB section. -/
def container : List Byte :=
  image 0x70 [(0, 4, 0x4B535248), (4, 2, 1), (0xC, 2, 12), (0xE, 2, 0x4000), (0x10, 8, 0x4300), (0x18, 1, 1), (0x19, 1, 1), (0x1A, 1, 1), (0x1B, 1, 1)] ++ (leBytes 64 (dig []) ++ (List.replicate 0x350 0 ++ (table ++ List.replicate 1920 0)))
theorem leNat_leBytes (n x : Nat) : leNat (leBytes n x) = x % 256 ^ n := by
  induction n generalizing x with
  | zero => simp [leNat, leBytes, Nat.mod_one]
  | succ n ih =>
    have e : leNat (leBytes (n + 1) x) = x % 256 + 256 * leNat (leBytes n (x / 256)) := by simp [leNat, leBytes]
    rw [e, ih, Nat.pow_succ', Nat.mod_mul]
theorem leBytes_length (n x : Nat) : (leBytes n x).length = n := by
  induction n generalizing x with
  | zero => rfl
  | succ n ih => simp [leBytes, ih]
theorem leNat_lt (l : List Byte) : leNat l < 256 ^ l.length := by
  induction l with
  | nil => exact Nat.one_pos
  | cons b l ih =>
    have e : leNat (b :: l) = b.toNat + 256 * leNat l := rfl
    have := b.isLt
    rw [e, List.length_cons, Nat.pow_succ]; omega
theorem dig_lt (l : List Byte) : dig l < 256 ^ 64 := by
  refine Nat.lt_of_lt_of_le (leNat_lt _) (Nat.pow_le_pow_right (by decide) ?_)
  rw [shake256]; exact List.length_take_le _ _
theorem container_map : leAt container 0x70 64 = dig [] := by
  have a : (image 0x70 [(0, 4, 0x4B535248), (4, 2, 1), (0xC, 2, 12), (0xE, 2, 0x4000), (0x10, 8, 0x4300), (0x18, 1, 1), (0x19, 1, 1), (0x1A, 1, 1), (0x1B, 1, 1)]).length = 0x70 := by
    simp [image]
  rw [leAt, container, List.drop_append_of_le_length (Nat.le_of_eq a.symm), List.drop_eq_nil_of_le (Nat.le_of_eq a), List.nil_append,
    List.take_append_of_le_length (Nat.le_of_eq (leBytes_length _ _).symm), List.take_of_length_le (Nat.le_of_eq (leBytes_length _ _)), leNat_leBytes]
  exact Nat.mod_eq_of_lt (dig_lt _)
def s_load : State := { told 1 3 1 with spl := { State.reset.spl with objs := [{ objOne with data := container }] } }
def u_load : State := s_load.taken (msg 64) (hear (ses 1) 3 1)
/-- The sections its table lists. -/
def entries : List SecEntry := (List.range 12).map fun i => ⟨i + 1, 0, 0x4000 + 64 * i, 64, 0, true⟩
theorem load_head : u_load.headFault 0 container false false = none := by
  have e : secEntries container = entries := by decide +kernel
  have t : (u_load.part 0).tableFault container false = none := by
    have z : zeroAt container (0x400 + 96 * entries.length) (96 * (32 - entries.length)) = true := by decide +kernel
    simp only [Part.tableFault, e, z]
    decide +kernel
  have a : u_load.versionsOk container = true ∧ (u_load.part 0).baseOk container = true ∧ u_load.placeOk 0 container false = true
      ∧ (u_load.part 0).defectOk container = true := by decide +kernel
  simp [State.headFault, t, a, failIf]
theorem load_commit : u_load.commitFault 0 container false = none := by
  have a : headFlag container 1 = false := by decide +kernel
  have x : (u_load.part 0).newCfg container = sectionsOf container := by simp [Part.newCfg, a]
  let y := (u_load.part 0).withSections (sectionsOf container) 0
  have e : y.sect 0xC = [] := by decide +kernel
  have r : u_load.resourcesOk 0 y = true := by decide +kernel
  have q : u_load.placeOk 0 container false = true := by decide +kernel
  have l : u_load.slubsOk (headRect container) (y.sect 0xC) (y.sect 2) = true := by decide +kernel
  have g : u_load.mapOk 0 container = true := by
    simp only [y] at e l
    rw [State.mapOk, if_neg (by rw [a]; exact Bool.false_ne_true)]
    simp only [e, container_map, decide_true, Bool.and_true]
    simpa [e] using l
  simp only [y] at r
  simp [State.commitFault, a, x, r, q, g, failIf]
theorem witness_load : (msg 64).part ≤ 15 ∧ s_load.doldrums = false ∧ (s_load.part 0).standby = []
    ∧ u_load.findObj (fun k => decide (k = .bitstream)) 77 = some { objOne with data := container } ∧ headFlag container 1 = false
    ∧ u_load.headFault 0 container false false = none ∧ u_load.commitFault 0 container false = none
    ∧ Delivered (msg 64) 3 1 64 s_load (hear (ses 1) 3 1) :=
  ⟨by decide, by decide +kernel, by decide +kernel, rfl, by decide +kernel, load_head, load_commit, delivered_of (by decide +kernel)⟩
theorem witness_spl_delete :
    Delivered (msg 72) 2 6 72 s_spl_delete (hear (ses 1) 2 6) ∧ (s_spl_delete.listed 0).find? (fun o => decide (o.digest = 77)) = some objOne ∧ s_spl_delete.objFlags objOne = 0 :=
  ⟨delivered_of (by decide +kernel), by decide +kernel⟩
def s_load_con : State := s_load
/-- A DOFF image of one unit of ten bursts for layer 0, measurement of its model 5. -/
def doffImage : List Byte := image 0x500 [(8, 4, 2), (0xC, 2, 1), (0x10, 8, 0x11000), (0x18, 1, 1), (0x19, 1, 1), (0x70, 64, 5), (0x404, 4, 20), (0x408, 4, 10), (0x418, 8, 0x10000)]
/-- The model image, of no unit. -/
def modelImage : List Byte := image 0x40 [(0x18, 1, 1), (0x19, 1, 1), (0x20, 4, 100), (0x24, 4, 100)]
theorem segCount_end {bs : List Byte} {off : Nat} (i : Nat) (h : bs.length ≤ off) : segCount bs off i = 0 := by
  rw [segCount, leAt, List.drop_eq_nil_of_le (by omega)]; rfl
theorem vacantOk_end (s : State) (p : Nat) {bs : List Byte} (h : ∀ u ∈ imgUnits bs, bs.length ≤ u.off) : s.vacantOk p bs = true := by
  simp only [State.vacantOk, List.all_eq_true]
  intro u hu i _
  simp [segCount_end i (h u hu)]
def s_weights : State := { onRegion { ready with state := .loading, placed := true, model := imgMeasure modelImage, cfg := [geom, plan, layout] } with xfers := [{ xferOne with kind := 1, verified := true, total := 64, data := modelImage.zipIdx.map fun x => (x.2, some x.1) }] }
theorem witness_weights : s_weights.modelSource 0 = some modelImage ∧ (s_weights.part 0).repair = none ∧ (s_weights.part 0).state = .loading ∧ (s_weights.part 0).placed = true
    ∧ (∀ r ∈ s_weights.allRegions 0, pwrUp (s_weights.region r).pwr.state = true)
    ∧ (s_weights.part 0).imageFits modelImage 1 = true ∧ s_weights.vacantOk 0 modelImage = true := by
  refine ⟨by rfl, by decide +kernel, by decide +kernel, by decide +kernel, by decide +kernel, ?_, by decide +kernel⟩
  have a : leAt modelImage 0x20 4 = (((s_weights.part 0).area 0 0).getD (0, 0)).2 := by decide +kernel
  have b : leAt modelImage 0x24 4 = (((s_weights.part 0).area 1 0).getD (0, 0)).2 := by decide +kernel
  have c : leAt modelImage 0x18 1 = (s_weights.part 0).rows ∧ leAt modelImage 0x19 1 = (s_weights.part 0).cols := by decide +kernel
  have d : (s_weights.part 0).state = .loading := by decide +kernel
  have e : (s_weights.part 0).model = imgMeasure modelImage := rfl
  have f : imgUnits modelImage = [] := by decide +kernel
  simp [Part.imageFits, a, b, c, d, e, f]
def s_weights_con : State := s_weights
def s_partial_begin : State := onRegion { ready with pend := [⟨0xE, 0, [1]⟩], pendDigest := 6 }
theorem witness_partial_begin :
    (s_partial_begin.part 0).state = .ready ∧ (s_partial_begin.part 0).pend ≠ [] ∧ (s_partial_begin.part 0).phase = .none ∧ (s_partial_begin.part 0).repair = none ∧ (s_partial_begin.part 0).applying = 0 ∧ (s_partial_begin.part 0).held = 0 :=
  by decide +kernel
def s_partial_apply : State := onRegion { ready with pend := [⟨0xE, 0, [1]⟩], pendDigest := 6, applying := 1, held := 3 }
theorem witness_partial_apply :
    (s_partial_apply.part 0).state = .ready ∧ (s_partial_apply.part 0).pend ≠ [] ∧ (s_partial_apply.part 0).phase = .none ∧ (s_partial_apply.part 0).repair = none ∧ (s_partial_apply.part 0).applying = 1 :=
  by decide +kernel
def s_unload : State := { told 1 3 2 with parts := [(0, ready)], regions := [(0, running)], vaults := [(7, { Vault.reset with data := [(0, 1)] })] }
theorem witness_unload :
    Delivered (msg 8) 3 2 8 s_unload (hear (ses 1) 3 2) ∧ s_unload.doldrums = false ∧ (s_unload.part 0).state = .ready ∧ s_unload.partReqs 0 (fun r => decide (r.state.code ≤ 4)) = [] :=
  ⟨delivered_of (by decide +kernel), by decide +kernel⟩
def s_unload_forced : State := { told 1 3 2 with parts := [(0, { ready with state := .down })], regions := [(0, running)], srv := { State.reset.srv with reqs := [(0, reqOne)] } }
/-- A READY partition that the DOFF image fits. -/
def doffPart : Part := { ready with model := 5, cfg := [geom, plan, pages, layout], ptrs := [⟨0, 0, 20, 10, [0, 0, 0, 0], 5, 0, 20⟩], epoch := 255 }
def s_doff (typ : Nat) (x : Part) : State := { told 1 3 typ with parts := [(0, x)], regions := [(0, running)], spl := { State.reset.spl with objs := [{ objOne with kind := .doff, data := doffImage }] } }
theorem witness_doff : (s_doff 3 doffPart).doldrums = false ∧ ((s_doff 3 doffPart).part 0).state = .ready
    ∧ ((s_doff 3 doffPart).taken (msg 72) (hear (ses 1) 3 3)).imageSource 77 = some doffImage ∧ imgFlag doffImage 1 = true
    ∧ doffPart.imageFits doffImage 4 = true ∧ ((s_doff 3 doffPart).taken (msg 72) (hear (ses 1) 3 3)).vacantOk 0 doffImage = true
    ∧ doffPart.doff.state = 0 ∧ doffPart.oldLive = false ∧ doffPart.stagingSlots (imgUnits doffImage) [] = some [0]
    ∧ Delivered (msg 72) 3 3 72 (s_doff 3 doffPart) (hear (ses 1) 3 3) :=
  ⟨by decide +kernel, by decide +kernel, by decide +kernel, by decide +kernel, by decide +kernel, vacantOk_end _ _ (by decide +kernel), by decide +kernel, by decide +kernel,
    by decide +kernel, delivered_of (by decide +kernel)⟩
theorem witness_unload_forced :
    Delivered (msg 8) 3 2 8 s_unload_forced (hear (ses 1) 3 2) ∧ s_unload_forced.doldrums = false ∧ (s_unload_forced.part 0).state = .down :=
  ⟨delivered_of (by decide +kernel), by decide +kernel⟩
def s_doff_con : State := s_doff 3 doffPart
/-- The unit of the DOFF image. -/
def unitOne : WUnit := { kind := 0, index := 0, wid := 0, base := 20, len := 10, erefs := [0, 0, 0, 0], off := 0x10000, size := 0x1000, digest := 0 }
def s_doff_switch : State := onRegion { doffPart with doff := { state := 2, inPlace := false, image := 77, units := [unitOne], dst := [300], done := 1, data := [], again := [] }, phase := .running }
/-- A doff of two units in place. -/
def placeDoff (n : Nat) : Doff := { state := n, inPlace := true, image := 77, units := [unitOne, { unitOne with index := 1 }], dst := [], done := 0, data := doffImage, again := [] }
theorem witness_doff_switch :
    (s_doff_switch.part 0).state = .ready ∧ (s_doff_switch.part 0).doff.state = 2 ∧ (s_doff_switch.part 0).oldLive = false ∧ (s_doff_switch.part 0).held = 0 ∧ (s_doff_switch.part 0).repair = none ∧ (s_doff_switch.part 0).phase ≠ .none :=
  by decide +kernel
def s_doff_hold : State := s_doff 3 { doffPart with doff := placeDoff 1 }
theorem witness_doff_hold :
    (s_doff_hold.part 0).state = .ready ∧ (s_doff_hold.part 0).doff.state = 1 ∧ (s_doff_hold.part 0).doff.inPlace = true ∧ (s_doff_hold.part 0).phase = .none ∧ (s_doff_hold.part 0).repair = none ∧ (s_doff_hold.part 0).held = 0 ∧ (s_doff_hold.part 0).applying = 0 :=
  by decide +kernel
def s_doff_unit : State := s_doff 3 { doffPart with doff := placeDoff 3, held := 4 }
theorem witness_doff_unit :
    ((s_doff_unit.part 0).state = .ready ∧ (s_doff_unit.part 0).doff.state = 3 ∧ (s_doff_unit.part 0).doff.inPlace = true ∧ (s_doff_unit.part 0).phase = .none ∧ (s_doff_unit.part 0).repair = none) ∧ (s_doff_unit.part 0).doff.units[(s_doff_unit.part 0).doff.done]? = some unitOne ∧ s_doff_unit.imageSource (s_doff_unit.part 0).doff.image = some doffImage ∧ (s_doff_unit.part 0).doff.done + 1 < (s_doff_unit.part 0).doff.units.length :=
  ⟨by decide +kernel, by decide +kernel⟩
def s_doff_staged_again : State := s_doff 3 { doffPart with doff := { placeDoff 4 with again := [7] } }
theorem witness_doff_staged_again :
    ((s_doff_staged_again.part 0).state = .ready ∧ (s_doff_staged_again.part 0).doff.state = 4 ∧ (s_doff_staged_again.part 0).doff.inPlace = true ∧ (s_doff_staged_again.part 0).phase = .none ∧ (s_doff_staged_again.part 0).repair = none) ∧ (s_doff_staged_again.imageSource (s_doff_staged_again.part 0).doff.image).isSome = true :=
  ⟨by decide +kernel, by decide +kernel⟩
def s_doff_cancel : State := s_doff 4 { doffPart with doff := { state := 2, inPlace := false, image := 77, units := [unitOne], dst := [300], done := 1, data := [], again := [] } }
def s_slot (typ n : Nat) : State := { told 1 3 typ with parts := [(0, { ready with cfg := [layout], adapt := [(255, ⟨n, 5⟩)], tuneSlot := some 255, tune := [layout] })], srv := { State.reset.srv with reqs := [(0, { reqOne with state := .paused })] } }
theorem slots_some (typ n : Nat) : 255 < ((s_slot typ n).part 0).adaptSlots := by
  have h : (((s_slot 5 1).part 0).area 2 0).isSome = true := by decide +kernel
  have e : ((s_slot typ n).part 0).area 2 0 = ((s_slot 5 1).part 0).area 2 0 := rfl
  simp only [Part.adaptSlots, e, h, if_true]; omega
theorem witness_adapter_loading : Delivered (msg 8) 3 5 8 (s_slot 5 1) (hear (ses 1) 3 5) ∧ (s_slot 5 1).doldrums = false
    ∧ ((s_slot 5 1).part 0).loaded = true ∧ 255 < ((s_slot 5 1).part 0).adaptSlots ∧ (s_slot 5 1).xfers = []
    ∧ (tget ((s_slot 5 1).part 0).adapt ⟨0, 0⟩ 255).state = 1 :=
  ⟨delivered_of (by decide +kernel), by decide +kernel, by decide +kernel, slots_some 5 1, by decide +kernel, by decide +kernel⟩
theorem witness_adapter_ready : Delivered (msg 8) 3 5 8 (s_slot 5 2) (hear (ses 1) 3 5) ∧ (s_slot 5 2).doldrums = false
    ∧ ((s_slot 5 2).part 0).loaded = true ∧ 255 < ((s_slot 5 2).part 0).adaptSlots ∧ (s_slot 5 2).xfers = []
    ∧ (tget ((s_slot 5 2).part 0).adapt ⟨0, 0⟩ 255).state = 2 :=
  ⟨delivered_of (by decide +kernel), by decide +kernel, by decide +kernel, slots_some 5 2, by decide +kernel, by decide +kernel⟩
theorem witness_tune : Delivered (msg 12) 3 6 (8 + 4 * [131072].length) (s_slot 6 2) (hear (ses 1) 3 6) ∧ ((s_slot 6 2).part 0).tuneSlot = some 255
    ∧ ((s_slot 6 2).part 0).tune ≠ [] ∧ [131072].map (s_slot 6 2).findReq = [0].map some ∧ ((s_slot 6 2).req 0).par.part = (msg 12).part
    ∧ ((s_slot 6 2).req 0).state = .paused :=
  ⟨delivered_of (by decide +kernel), by decide +kernel, by decide +kernel, by decide +kernel, by decide +kernel, by decide +kernel⟩
theorem witness_doff_cancel :
    Delivered (msg 0) 3 4 0 s_doff_cancel (hear (ses 1) 3 4) ∧ s_doff_cancel.doldrums = false ∧ (s_doff_cancel.part 0).doff.state ≠ 0 ∧ (s_doff_cancel.part 0).doff.inPlace = false ∧ (s_doff_cancel.part 0).doffWait = [] :=
  ⟨delivered_of (by decide +kernel), by decide +kernel⟩
def s_adapter_con : State := s_slot 5 1
def s_tune_con : State := s_slot 6 2

/-! ### Requests -/

/-- Partition 0 READY and a message from a session of a role and tenant 0. -/
def asked (role cls typ : Nat) (x : Part) (r : Request) : State := { told role cls typ with parts := [(0, x)], regions := [(0, running)], srv := { State.reset.srv with reqs := [(0, r)] } }
/-- Parameters of a request. -/
def params : ReqParam := { noParams with promptLen := 3, maxNew := 9, adapter := 0xFFFF, width := 1, topP := 0x3F80, tag := 5 }
def s_submit : State := { told 0 4 1 with parts := [(0, ready)], regions := [(0, running)] }
theorem witness_submit :
    Delivered (msg 68) 4 1 (64 + 4 * [7].length) s_submit (hear (ses 0) 4 1) ∧ (s_submit.doldrums = false ∧ (msg 68).part ≤ 15 ∧ params.flags < 32 ∧ params.tenant = (ses 0).tenant ∧ s_submit.mayUse (hear (ses 0) 4 1) (msg 68).part = true) ∧ s_submit.admission (msg 68).part params [7].length = stOk ∧ (s_submit.req 0).used = false :=
  ⟨delivered_of (by decide +kernel), by decide +kernel, by decide +kernel⟩
def s_submit_refused : State := { told 0 4 1 with parts := [(0, { ready with state := .down })] }
theorem witness_submit_refused :
    Delivered (msg 68) 4 1 (64 + 4 * [7].length) s_submit_refused (hear (ses 0) 4 1) ∧ s_submit_refused.doldrums = false ∧ s_submit_refused.mayUse (hear (ses 0) 4 1) (msg 68).part = true ∧ s_submit_refused.admission (msg 68).part params [7].length ≠ stOk :=
  ⟨delivered_of (by decide +kernel), by decide +kernel⟩
def s_prompt : State := asked 0 4 2 ready { reqOne with state := .queued, turnLen := 4, turnGot := 3 }
/-- A chunk record. -/
def chunkOne : Chunk := ⟨4, 3, 2, 1, 0, 0, 0, [9], [0]⟩
theorem witness_prompt :
    Delivered (msg 20) 4 2 (16 + 4 * [8].length) s_prompt (hear (ses 0) 4 2) ∧ s_prompt.doldrums = false ∧ s_prompt.findReq 0x20000 = some 0 ∧ (s_prompt.req 0).par.tenant = (ses 0).tenant ∧ (s_prompt.req 0).state.isOver = false ∧ (s_prompt.req 0).turnGot + [8].length ≤ (s_prompt.req 0).turnLen ∧ (s_prompt.req 0).nextSeq = 0 :=
  ⟨delivered_of (by decide +kernel), by decide +kernel⟩
def s_read : State := asked 0 4 3 ready { reqOne with chunks := [chunkOne], nextSeq := 5 }
theorem witness_read :
    Delivered (msg 8) 4 3 8 s_read (hear (ses 0) 4 3) ∧ s_read.doldrums = false ∧ s_read.findReq 0x20000 = some 0 ∧ 4 < (s_read.req 0).nextSeq ∧ (s_read.req 0).chunks.find? (fun c => decide (c.seq = 4)) = some chunkOne :=
  ⟨delivered_of (by decide +kernel), by decide +kernel⟩
def s_status : State := asked 0 4 5 ready { reqOne with kvExpired := true }
theorem witness_status :
    Delivered (msg 8) 4 5 8 s_status (hear (ses 0) 4 5) ∧ s_status.doldrums = false ∧ s_status.findReq 0x20000 = some 0 ∧ (s_status.req 0).state = .spin :=
  ⟨delivered_of (by decide +kernel), by decide +kernel⟩
def s_claim : State := asked 0 4 9 ready reqOne
theorem witness_claim :
    Delivered (msg 8) 4 9 8 s_claim (hear (ses 0) 4 9) ∧ s_claim.doldrums = false ∧ s_claim.findReq 0x20000 = some 0 ∧ (s_claim.req 0).par.tenant = (ses 0).tenant :=
  ⟨delivered_of (by decide +kernel), by decide +kernel⟩
def s_cancel_in_step : State := asked 0 4 6 { ready with phase := .running, items := [⟨0, 1, 2⟩] } reqOne
theorem witness_cancel_in_step :
    Delivered (msg 8) 4 6 8 s_cancel_in_step (hear (ses 0) 4 6) ∧ s_cancel_in_step.doldrums = false ∧ s_cancel_in_step.findReq 0x20000 = some 0 ∧ (s_cancel_in_step.req 0).state.isOver = false ∧ s_cancel_in_step.inStep 0 = true :=
  ⟨delivered_of (by decide +kernel), by decide +kernel⟩
def s_cancel : State := asked 0 4 6 ready reqOne
theorem witness_cancel :
    Delivered (msg 8) 4 6 8 s_cancel (hear (ses 0) 4 6) ∧ s_cancel.findReq 0x20000 = some 0 ∧ (s_cancel.req 0).state.isOver = false ∧ s_cancel.inStep 0 = false ∧ (s_cancel.req 0).used = true :=
  ⟨delivered_of (by decide +kernel), by decide +kernel⟩
def s_pause : State := asked 0 4 7 ready reqOne
theorem witness_pause :
    Delivered (msg 8) 4 7 8 s_pause (hear (ses 0) 4 7) ∧ s_pause.findReq 0x20000 = some 0 ∧ (s_pause.req 0).state = .spin ∧ (s_pause.req 0).reshard = false ∧ s_pause.inStep 0 = false :=
  ⟨delivered_of (by decide +kernel), by decide +kernel⟩
def s_pause_in_step : State := asked 0 4 7 { ready with phase := .running, items := [⟨0, 1, 2⟩] } reqOne
theorem witness_pause_in_step :
    Delivered (msg 8) 4 7 8 s_pause_in_step (hear (ses 0) 4 7) ∧ s_pause_in_step.findReq 0x20000 = some 0 ∧ (s_pause_in_step.req 0).state = .spin ∧ s_pause_in_step.inStep 0 = true :=
  ⟨delivered_of (by decide +kernel), by decide +kernel⟩
def s_release_ended : State := asked 0 4 8 ready { reqOne with state := .done, gen := 32767 }
theorem witness_release_ended :
    Delivered (msg 8) 4 8 8 s_release_ended (hear (ses 0) 4 8) ∧ s_release_ended.findReq (32767 * 131072) = some 0 ∧ (s_release_ended.req 0).state.isOver = true :=
  ⟨delivered_of (by decide +kernel), by decide +kernel⟩
def s_release_paused : State := asked 0 4 8 ready { reqOne with state := .paused }
theorem witness_release_paused :
    Delivered (msg 8) 4 8 8 s_release_paused (hear (ses 0) 4 8) ∧ s_release_paused.findReq 0x20000 = some 0 ∧ (s_release_paused.req 0).state = .paused ∧ (s_release_paused.req 0).used = true :=
  ⟨delivered_of (by decide +kernel), by decide +kernel⟩
def s_resume : State := asked 0 4 0xA ready { reqOne with state := .paused, par := { params with part := 0 } }
theorem witness_resume :
    Delivered (msg 48) 4 0xA (48 + 4 * ([] : List Nat).length) s_resume (hear (ses 0) 4 0xA) ∧ (s_resume.doldrums = false ∧ s_resume.findReq 0x20000 = some 0 ∧ s_resume.mayUse (hear (ses 0) 4 0xA) (s_resume.req 0).par.part = true ∧ s_resume.mayUse (hear (ses 0) 4 0xA) (msg 48).part = true ∧ (s_resume.tenant (s_resume.req 0).par.tenant).admitOk = true ∧ (s_resume.req 0).state = .paused ∧ (s_resume.req 0).spoolingIn = false) ∧ ((s_resume.part 0).state = .ready ∧ (s_resume.part 0).held = 0 ∧ (s_resume.req 0).par.maxNew ≤ (s_resume.part 0).maxNew ∧ tempOk (s_resume.req 0).par.temp = true ∧ topPOk (s_resume.req 0).par.topP = true ∧ (s_resume.req 0).par.topK ≤ 1024) ∧ s_resume.fits 0 ((s_resume.req 0).positions + 0 + (s_resume.req 0).par.maxNew) = true :=
  ⟨delivered_of (by decide +kernel), by decide +kernel, by decide +kernel, by decide +kernel⟩
def s_resume_refused : State := { asked 0 4 0xA ready { reqOne with state := .paused, par := { params with part := 0 } } with srv := { State.reset.srv with reqs := [(0, { reqOne with state := .paused, par := { params with part := 0 } })], tenants := [(0, { Tenant.reset with admitOk := false })] } }
/-- A request alone, at a WTIME. -/
def timed (now : Nat) (x : Part) (r : Request) : State := { State.reset with parts := [(0, x)], srv := { State.reset.srv with reqs := [(0, r)] }, clk := { State.reset.clk with wtime := now } }
def s_prompt_timeout : State := timed (secs 60) ready { reqOne with state := .queued, turnLen := 4, par := { reqOne.par with promptLen := 4 } }
theorem witness_prompt_timeout :
    (s_prompt_timeout.req 0).live = true ∧ (s_prompt_timeout.req 0).hist.length < (s_prompt_timeout.req 0).par.promptLen ∧ (s_prompt_timeout.req 0).lastBlock + secs 60 ≤ s_prompt_timeout.clk.wtime :=
  by decide +kernel
def s_result_ttl : State := timed (secs 60) ready { reqOne with state := .done }
theorem witness_result_ttl :
    (s_result_ttl.req 0).used = true ∧ (s_result_ttl.req 0).state.isOver = true ∧ (s_result_ttl.req 0).endedAt + secs s_result_ttl.srv.resultTtl ≤ s_result_ttl.clk.wtime :=
  by decide +kernel
def s_result_ttl_early : State := timed (secs 60 - 1) ready { reqOne with state := .done }
theorem witness_result_ttl_early :
    (s_result_ttl_early.req 0).state.isOver = true ∧ s_result_ttl_early.clk.wtime < (s_result_ttl_early.req 0).endedAt + secs s_result_ttl_early.srv.resultTtl :=
  by decide +kernel
def s_hist_ttl : State := timed (secs (3600 * 0xA8)) ready { reqOne with state := .spooled, pages := [] }
theorem witness_hist_ttl :
    (s_hist_ttl.req 0).state = .spooled ∧ (s_hist_ttl.req 0).used = true ∧ (s_hist_ttl.req 0).spoolingIn = false ∧ (s_hist_ttl.req 0).idleSince + secs (3600 * s_hist_ttl.srv.histTtl) ≤ s_hist_ttl.clk.wtime :=
  by decide +kernel
def s_kv_ttl : State := { timed (secs 0xE10) ready { reqOne with state := .spooled, kvCard := some 0 } with spl := { State.reset.spl with objs := [{ objOne with kind := .kv, digest := 0 }] } }
/-- A card in service with 1 GB of budget. -/
def cardOne : Card := { Card.reset with state := 2, present := true, rate := 100, rate0 := 100, level := 1000000000 }
/-- A request paused in a partition with no section loaded, and a card. -/
def paused (now : Nat) (r : Request) : State := { timed now { ready with cfg := [] } { r with state := .paused } with spl := { State.reset.spl with cards := [(0, cardOne)] } }
theorem record_small : (Part.recordBytes { ready with cfg := [] } 1 1) = 4 := by
  have a : Part.layers { ready with cfg := [] } = 0 := by decide +kernel
  have b : Part.kvLayers { ready with cfg := [] } = 0 := by decide +kernel
  simp [Part.recordBytes, Part.pageBytes, a, b]
def s_dwell : State := paused (msecs 0x7D0) reqOne
theorem witness_dwell : (s_dwell.req 0).state = .paused ∧ (s_dwell.req 0).spooling = none ∧ (s_dwell.req 0).flag 2 = false ∧ (s_dwell.req 0).spoolingIn = false
    ∧ (s_dwell.part 0).spool.toNat % 2 ^ 15 ≠ 0 ∧ (s_dwell.req 0).retryAt = 0 ∧ (s_dwell.req 0).pausedAt + msecs ((s_dwell.part 0).spool.toNat % 2 ^ 15) ≤ s_dwell.clk.wtime
    ∧ (s_dwell.kvAdmit 0 ((s_dwell.part 0).recordBytes 1 1)).2 = some 0 :=
  ⟨by decide +kernel, by decide +kernel, by decide +kernel, by decide +kernel, by decide +kernel, by decide +kernel, by decide +kernel, by
    rw [show s_dwell.part 0 = { ready with cfg := [] } from rfl, record_small]; decide +kernel⟩
theorem witness_kv_ttl :
    ((s_kv_ttl.req 0).state = .spooled ∧ (s_kv_ttl.req 0).spoolingIn = false ∧ (s_kv_ttl.req 0).kvCard ≠ none ∧ (s_kv_ttl.req 0).par.kvTtl = 0) ∧ (s_kv_ttl.req 0).durableAt + secs ((s_kv_ttl.part 0).spool.toNat / 2 ^ 15) ≤ s_kv_ttl.clk.wtime :=
  ⟨by decide +kernel, by decide +kernel⟩
def s_dwell_con : State := s_dwell
def s_retry : State := paused 5 { reqOne with retryAt := 5 }
theorem witness_retry : (s_retry.req 0).state = .paused ∧ (s_retry.req 0).spooling = none ∧ (s_retry.req 0).flag 2 = false ∧ (s_retry.req 0).spoolingIn = false
    ∧ (s_retry.req 0).retryAt ≠ 0 ∧ (s_retry.req 0).retryAt ≤ s_retry.clk.wtime ∧ (s_retry.kvAdmit 0 ((s_retry.part 0).recordBytes 1 1)).2 = some 0 :=
  ⟨by decide +kernel, by decide +kernel, by decide +kernel, by decide +kernel, by decide +kernel, by decide +kernel, by
    rw [show s_retry.part 0 = { ready with cfg := [] } from rfl, record_small]; decide +kernel⟩
def s_retry_con : State := s_retry
def s_spool_out : State := timed 5 ready { reqOne with state := .paused, spooling := some 1 }
theorem witness_spool_out : (s_spool_out.req 0).spooling = some 1 ∧ (s_spool_out.req 0).state = .paused := by decide +kernel
def s_spool_in : State := { timed 5 ready { reqOne with state := .spooled, spoolingIn := true, turnLen := 0, turnGot := 0, kvCard := some 0, pages := [⟨0, 0, 4, true, 2⟩], target := [(0, 0)] } with spl := { State.reset.spl with objs := [{ objOne with kind := .kv, digest := 0 }] } }
theorem witness_spool_in :
    ((s_spool_in.req 0).state = .spooled ∧ (s_spool_in.req 0).spoolingIn = true ∧ (s_spool_in.part 0).held = 0 ∧ (s_spool_in.req 0).turnLen = 0) ∧ s_spool_in.spl.objs.find? (fun o => decide (o.kind = .kv) && decide (o.digest = 0)) = some { objOne with kind := .kv, digest := 0 } :=
  ⟨by decide +kernel, by decide +kernel⟩
def s_spool_wait : State := timed (msecs 100) ready { reqOne with waitSince := some 0, newTok := 1, nextSeq := 1 }
theorem witness_spool_wait :
    (s_spool_wait.req 0).used = true ∧ (s_spool_wait.req 0).nextSeq = 1 ∧ (s_spool_wait.req 0).waitSince = some 0 ∧ (s_spool_wait.req 0).state = .spin ∧ (s_spool_wait.req 0).reshard = false ∧ s_spool_wait.inStep 0 = false ∧ 0 + (s_spool_wait.part 0).spoolWait ≤ s_spool_wait.clk.wtime :=
  by decide +kernel
def s_ingest_wait : State := timed (msecs 1000) ready { reqOne with waitSince := some 0, state := .queued }
theorem witness_ingest_wait :
    (s_ingest_wait.req 0).used = true ∧ (s_ingest_wait.req 0).nextSeq = 0 ∧ (s_ingest_wait.req 0).waitSince = some 0 ∧ (s_ingest_wait.req 0).state = .queued ∧ (s_ingest_wait.req 0).reshard = false ∧ s_ingest_wait.inStep 0 = false ∧ 0 + (s_ingest_wait.part 0).ingestWait ≤ s_ingest_wait.clk.wtime :=
  by decide +kernel
def s_bucket : State := { State.reset with srv := { State.reset.srv with tenants := [(3, { Tenant.reset with rate := 1001, depth := 1 })] } }
theorem witness_bucket : twf Tenant.reset 0 s_bucket.srv.tenants = true := by decide +kernel
def s_abort : State := asked 1 8 1 { ready with phase := .running, items := [⟨0, 1, 2⟩] } reqOne
theorem witness_abort :
    Delivered (msg 8) 8 1 8 s_abort (hear (ses 1) 8 1) ∧ (msg 8).part ≤ 15 ∧ (s_abort.part 0).state = .ready ∧ (s_abort.part 0).repair = none ∧ (s_abort.part 0).applying = 0 ∧ (s_abort.part 0).doff.state ≠ 3 :=
  ⟨delivered_of (by decide +kernel), by decide +kernel⟩
def s_abort_device : State := asked 1 8 1 { ready with phase := .running } reqOne
theorem witness_abort_device :
    Delivered (msg 8) 8 1 8 s_abort_device (hear (ses 1) 8 1) ∧ ((∀ p, (s_abort_device.part p).repair = none ∧ (s_abort_device.part p).applying = 0 ∧ (s_abort_device.part p).doff.state ≠ 3)) :=
  ⟨delivered_of (by decide +kernel), (fun p => by unfold State.part s_abort_device asked tget; split <;> exact ⟨rfl, rfl, show (0 : Nat) ≠ 3 by decide⟩)⟩

/-! ### Ethernet, firmware relay -/

/-- A steward in service, both ports in mode 0 with their engines ready. -/
def ported : State := { online with boot := { online.boot with stw := { State.reset.boot.stw with st0 := 1 } }, eth := { online.eth with oeReady := 3, present := 3, oeGood := 3, bypass := false, link := 0x10101 } }
def s_link_down : State := ported
theorem witness_link_down : (16 ≤ 16) ∧ ported.eth.link.getLsbD 16 = true := by decide +kernel
def s_link_up : State := { ported with eth := { ported.eth with link := 0 } }
theorem witness_link_up : s_link_up.eth.link.getLsbD 8 = false ∧ s_link_up.canTrain 8 = true := by decide +kernel
def s_oe_request : State := opened ported (hear (ses 1) 1 2)
theorem witness_oe_request :
    Delivered (msg 12) 1 2 12 s_oe_request (hear (ses 1) 1 2) ∧ (2 : Word).getLsbD 1 = true ∧ s_oe_request.eth.req.getLsbD 1 = false ∧ (2 : Word).getLsbD (1 - 1) = s_oe_request.eth.req.getLsbD (1 - 1) :=
  ⟨delivered_of (by decide +kernel), by decide +kernel⟩
def s_oe_clear : State := opened { ported with eth := { ported.eth with req := 2, safe := 2, oeReady := 1 } } (hear (ses 1) 1 2)
theorem witness_oe_clear :
    Delivered (msg 12) 1 2 12 s_oe_clear (hear (ses 1) 1 2) ∧ (0 : Word).getLsbD 1 = false ∧ s_oe_clear.eth.req.getLsbD 1 = true ∧ (0 : Word).getLsbD (1 - 1) = s_oe_clear.eth.req.getLsbD (1 - 1) ∧ s_oe_clear.eth.present.getLsbD 1 = true ∧ s_oe_clear.eth.oeGood.getLsbD 1 = true ∧ s_oe_clear.edgeUp = true :=
  ⟨delivered_of (by decide +kernel), by decide +kernel⟩
def s_oe_removed : State := ported
theorem witness_oe_removed : ported.eth.present.getLsbD 0 = true := by decide +kernel
def s_oe_inserted : State := { ported with eth := { ported.eth with present := 2, oeReady := 0, oeGood := 0 } }
/-- An address none of the device's own. -/
def foreign : Nat := (Config.factory 0 + 17) % 2 ^ 48
theorem foreign_mac : ownMac foreign = false := by
  simp only [ownMac, foreign, List.any_eq_false, List.mem_range]
  intro i hi h
  have e := of_decide_eq_true h
  omega
theorem witness_oe_inserted :
    (s_oe_inserted.eth.present.getLsbD 0 = false ∧ s_oe_inserted.deviceOk 5 ⟨0, 0, [0, 0, 0, 0, 0, 0]⟩ = true ∧ s_oe_inserted.eth.req.getLsbD 0 = false ∧ s_oe_inserted.edgeUp = true) ∧ s_oe_inserted.deviceOk 5 ⟨0, 0, [1, 0, 0, 0, 0, 0]⟩ = false :=
  ⟨by decide +kernel, by decide +kernel⟩
def s_forward : State := { ported with eth := { ported.eth with cfg := 0x20000, paused := [(8 * 8 + 7, 1)] } }
theorem witness_forward :
    ownMac foreign = false ∧ s_forward.forwards = true ∧ s_forward.eth.link.getLsbD 0 = true ∧ s_forward.eth.link.getLsbD 8 = true ∧ tget s_forward.eth.paused 0 (8 * 8 + 7) = 1 ∧ tget s_forward.eth.paused 0 (8 * 8 + 6) ≠ 1 :=
  ⟨foreign_mac, by decide +kernel⟩
def s_pfc : State := { ported with eth := { ported.eth with cfg := 0x8100, egress := [(8 * 16 + 7, 4)], paused := [(8 * 16 + 7, 1)] } }
theorem witness_pfc :
    (((0x81 : BitVec 8).getLsbD 0 && s_pfc.eth.pfcEn.getLsbD 0) = true) ∧ ((0x83 : BitVec 8).getLsbD 1 && s_pfc.eth.pfcEn.getLsbD 1) = false :=
  by decide +kernel
def s_protocol : State := ported
theorem witness_protocol : ported.accepts 16 none = true := by decide +kernel
def s_hello_send : State := { ported with eth := { ported.eth with cfg := 0x80000, helloAt := secs 1 } }
theorem witness_hello_send : s_hello_send.eth.relayEn = true ∧ s_hello_send.eth.helloAt + secs 1 ≤ s_hello_send.clk.wtime := by decide +kernel
def s_hello : State := { ported with eth := { ported.eth with cfg := 0x80000 } }
theorem witness_hello : s_hello.eth.relayEn = true ∧ s_hello.eth.link.getLsbD (8 * 1) = true := by decide +kernel
def s_rly_start : State := { ported with eth := { ported.eth with cfg := 0x80000, neigh := [(1, 6)] } }
/-- A relayed firmware transfer. -/
def relayed : Xfer := { xferOne with ses := 0, kind := 2, target := 2, total := 0x3000, slot := 1, data := [] }
theorem witness_rly_start :
    (s_rly_start.eth.relayEn = true ∧ tget s_rly_start.eth.neigh 0 1 = 5 % 2 ^ 128 + 1 ∧ s_rly_start.openXfers < 32) ∧ tget s_rly_start.eth.neigh 0 0 ≠ 5 % 2 ^ 128 + 1 :=
  ⟨by decide +kernel, by decide +kernel⟩
def s_rly_block : State := { online with xfers := [relayed] }
theorem witness_rly_block :
    (s_rly_block.xfer 3 = some relayed ∧ relayed.ses = 0 ∧ relayed.verified = false ∧ relayed.headOk = false ∧ 0xFC0 + 64 ≤ headBytes relayed.kind ∧ 0xFC0 + 64 ≤ relayed.total) ∧ relayed.conflicts 0xFC0 (List.replicate 64 5) = false ∧ (relayed.put 0xFC0 (List.replicate 64 5)).have_ 0 (min (headBytes relayed.kind) relayed.total) = false :=
  ⟨by decide +kernel, by decide +kernel⟩
def s_rly_done : State := { online with xfers := [{ relayed with verified := true }], boot := { State.reset.boot with relayAct := true, comps := [(1, { Comp.reset with state := 2, other := { Image.reset with version := 3 } })] } }
theorem witness_rly_done :
    s_rly_done.xfer 3 = some { relayed with verified := true } ∧ relayed.ses = 0 ∧ s_rly_done.boot.relayAct = true ∧ (s_rly_done.comp relayed.slot).state = 2 ∧ relayed.slot = 1 :=
  by decide +kernel
def s_rly_done_kept : State := { online with xfers := [{ relayed with verified := true }] }
theorem witness_rly_done_kept :
    s_rly_done_kept.xfer 3 = some { relayed with verified := true } ∧ s_rly_done_kept.boot.relayAct = false :=
  by decide +kernel
def s_dhcp : State := { online with eth := { online.eth with ifs := State.reset.eth.ifs } }
theorem witness_dhcp :
    s_dhcp.eth.link.getLsbD 16 = true ∧ (s_dhcp.iface 16).en = true ∧ (s_dhcp.iface 16).dhcp = true ∧ (s_dhcp.iface 16).man4 = false ∧ (s_dhcp.iface 16).man6 = false :=
  by decide +kernel

/-! ### Clocks and time -/

/-- Region 0 with a clock, at WTIME 20 s. -/
def clocked (c : RClk) (p : RPower) : State := { State.reset with regions := [(0, { running with clk := c, pwr := { p with state := 3 } })], parts := [(0, ready)], clk := { State.reset.clk with wtime := secs 20, rootLock := true, refOk := true } }
/-- A clock at ratio 12 between 8 and 16. -/
def clk12 : RClk := { RClk.reset with k := 12, kCap := 16, stopped := false }
def s_droop : State := clocked { clk12 with consec := 7 } RPower.reset
theorem witness_droop : (s_droop.region 0).clk.k ≠ 0 ∧ (s_droop.region 0).clk.consec < 8 := by decide +kernel
def s_droop_at_floor : State := clocked { clk12 with consec := 8, k := 8 } RPower.reset
theorem witness_droop_at_floor :
    (s_droop_at_floor.region 0).clk.k ≠ 0 ∧ (s_droop_at_floor.region 0).clk.k ≤ (s_droop_at_floor.region 0).clk.kFloor :=
  by decide +kernel
def s_step_down : State := clocked { clk12 with consec := 8, k := 9, down := 0xFFFF } RPower.reset
theorem witness_step_down :
    8 ≤ (s_step_down.region 0).clk.consec ∧ (s_step_down.region 0).clk.kFloor < (s_step_down.region 0).clk.k :=
  by decide +kernel
def s_floor_report : State := clocked { clk12 with consec := 8, k := 8 } { RPower.reset with setpt := 845 }
theorem witness_floor_report :
    (s_floor_report.region 0).clk.k ≠ 0 ∧ (s_floor_report.region 0).clk.k ≤ (s_floor_report.region 0).clk.kFloor ∧ 8 ≤ (s_floor_report.region 0).clk.consec ∧ (s_floor_report.region 0).clk.floorHit = 0 ∧ (s_floor_report.region 0).pwr.setpt < 850 :=
  by decide +kernel
def s_floor_unusable : State := clocked { clk12 with consec := 8, k := 8, floorHit := secs 20 - msecs 1 } { RPower.reset with setpt := 850, highSince := some (secs 10) }
theorem witness_floor_unusable :
    ((s_floor_unusable.region 0).clk.floorHit + msecs 1 ≤ s_floor_unusable.clk.wtime + 1 ∧ s_floor_unusable.clk.wtime + 1 ≤ (s_floor_unusable.region 0).clk.floorHit + msecs 2 ∧ (s_floor_unusable.region 0).clk.floorHit ≠ 0) ∧ (s_floor_unusable.region 0).clk.k ≠ 0 ∧ (s_floor_unusable.region 0).clk.k ≤ (s_floor_unusable.region 0).clk.kFloor ∧ 8 ≤ (s_floor_unusable.region 0).clk.consec ∧ 850 ≤ (s_floor_unusable.region 0).pwr.setpt ∧ (s_floor_unusable.region 0).pwr.highSince = some (secs 10) ∧ secs 10 + secs 10 ≤ s_floor_unusable.clk.wtime :=
  ⟨by decide +kernel, by decide +kernel⟩
def s_step_up : State := clocked { clk12 with k := 15, quiet := secs 20 - 8739 } RPower.reset
theorem witness_step_up :
    (s_step_up.region 0).clk.k ≠ 0 ∧ (s_step_up.region 0).clk.ramp = false ∧ (s_step_up.region 0).clk.k < (s_step_up.region 0).clk.kCap ∧ 131072 ≤ (s_step_up.clk.wtime - (s_step_up.region 0).clk.quiet) * (s_step_up.region 0).clk.k :=
  by decide +kernel
def s_start_ramp : State := clocked { clk12 with k := 15, ramp := true } RPower.reset
theorem witness_start_ramp :
    (s_start_ramp.region 0).clk.ramp = true ∧ (s_start_ramp.region 0).clk.quiet + usecs 10 ≤ s_start_ramp.clk.wtime ∧ (s_start_ramp.region 0).clk.k < (s_start_ramp.region 0).clk.kCap :=
  by decide +kernel
def s_start_ramp_end : State := clocked { clk12 with k := 16, ramp := true } RPower.reset
theorem witness_start_ramp_end :
    (s_start_ramp_end.region 0).clk.ramp = true ∧ (s_start_ramp_end.region 0).clk.quiet + usecs 10 ≤ s_start_ramp_end.clk.wtime ∧ (s_start_ramp_end.region 0).clk.kCap ≤ (s_start_ramp_end.region 0).clk.k :=
  by decide +kernel
def s_monitor : State := { clocked clk12 RPower.reset with parts := [(0, { ready with phase := .running })] }
theorem witness_monitor :
    ((s_monitor.region 0).clk.k ≠ 0 ∧ s_monitor.offFrequency 0 1407001 = true ∧ tget s_monitor.clk.lastFault 0 0 = 0 ∧ (s_monitor.region 0).part = some 0 ∧ (s_monitor.part 0).phase = .running) ∧ s_monitor.offFrequency 0 1407000 = false ∧ s_monitor.offFrequency 71 (nominalKHz 71) = false :=
  ⟨by decide +kernel, by decide +kernel⟩
def s_monitor_port : State := ported
def s_eth_retry : State := { State.reset with clk := { State.reset.clk with ethRetry := 2 } }
theorem witness_eth_retry : s_eth_retry.clk.ethRetry.getLsbD 1 = true := by decide +kernel
def s_clock_restart : State := { clocked { clk12 with k := 0, stopped := true, restartAt := 5 } RPower.reset with parts := [(0, { ready with phase := .frozen })] }
theorem witness_clock_restart :
    ((s_clock_restart.region 0).clk.restartAt ≠ 0 ∧ (s_clock_restart.region 0).pwr.state = 3 ∧ (s_clock_restart.region 0).clk.k = 0 ∧ (s_clock_restart.region 0).part = some 0 ∧ (s_clock_restart.part 0).phase = .frozen ∧ (s_clock_restart.part 0).repair = none ∧ (s_clock_restart.part 0).held = 0) ∧ (∀ q ∈ s_clock_restart.partRegions 0, q ≠ 0 → (s_clock_restart.region q).clk.restartAt = 0) :=
  ⟨by decide +kernel, by decide +kernel⟩
def s_root_unlock : State := clocked clk12 RPower.reset
theorem witness_root_unlock : s_root_unlock.clk.rootLock = true ∧ s_root_unlock.boot.start ≠ 2 ∧ s_root_unlock.boot.start ≠ 1 := by decide +kernel
def s_lock_retry : State := { onRegion ready with clk := { State.reset.clk with selfRefresh := true, mclkFallback := true, lockTries := 1, wtime := msecs 10 }, boot := { State.reset.boot with stw := { State.reset.boot.stw with st0 := 1 } } }
theorem witness_lock_retry :
    (s_lock_retry.clk.rootLock = false ∧ s_lock_retry.clk.selfRefresh = true ∧ s_lock_retry.boot.start ≠ 3 ∧ s_lock_retry.boot.start ≠ 4 ∧ s_lock_retry.clk.lockAt + msecs 10 ≤ s_lock_retry.clk.wtime ∧ s_lock_retry.clk.lockTries < 2) ∧ s_lock_retry.startable :=
  ⟨by decide +kernel, ⟨by decide +kernel, by decide +kernel⟩⟩
def s_checkpoint : State := { ported with clk := { State.reset.clk with wtime := 2 ^ 39 } }
theorem witness_checkpoint : s_checkpoint.edgeUp = true ∧ s_checkpoint.clk.checkpoint + 2 ^ 39 ≤ s_checkpoint.clk.wtime := by decide +kernel
def s_ptp_port : State := { ported with clk := { State.reset.clk with wtime := secs 5, rootLock := true, alnSrc := 1 }, eth := { ported.eth with ptp := 0x90068 } }
theorem witness_ptp_port :
    (s_ptp_port.clk.alnSrc = 1 ∧ s_ptp_port.eth.ptp.toNat / 32 % 2 = 1 ∧ s_ptp_port.eth.ptp.toNat % 32 = 8 ∧ s_ptp_port.eth.ptp.toNat / 65536 % 256 = 9 ∧ s_ptp_port.eth.ptp.toNat / 64 % 4 = 1) ∧ s_ptp_port.eth.link.getLsbD 8 = true ∧ s_ptp_port.clk.rootLock = true ∧ s_ptp_port.clk.alnState = 0 :=
  ⟨by decide +kernel, by decide +kernel⟩
def s_pps_acquires : State := { ported with clk := { State.reset.clk with wtime := secs 5, alnSrc := 2 } }
theorem witness_pps_acquires : s_pps_acquires.clk.alnSrc = 2 ∧ s_pps_acquires.clk.alnState = 0 := by decide +kernel
def s_holdover : State := { ported with clk := { State.reset.clk with wtime := secs 3, alnState := 2, alnRate := -9 } }
theorem witness_holdover : s_holdover.clk.alnState = 2 ∧ s_holdover.clk.alnLast + secs 3 ≤ s_holdover.clk.wtime := by decide +kernel
def s_pps_stray : State := { ported with clk := { State.reset.clk with wtime := secs 5, alnSrc := 2, alnState := 1, ppsTod := 9 } }
theorem witness_pps_stray :
    s_pps_stray.clk.alnSrc = 2 ∧ s_pps_stray.clk.alnState ≠ 0 ∧ 1000000 < (s_pps_stray.clk.aligned 7 - ((s_pps_stray.clk.alnT0s / 2 ^ 32 * 2 ^ 32 + s_pps_stray.clk.ppsTod % 2 ^ 32) * 1000000000 : Nat)).natAbs :=
  by decide +kernel
def s_pps_missing : State := { ported with clk := { State.reset.clk with wtime := secs 1, alnSrc := 2, alnState := 2 } }
theorem witness_pps_missing :
    s_pps_missing.clk.alnSrc = 2 ∧ s_pps_missing.clk.alnState ≠ 0 ∧ s_pps_missing.clk.alnLast + secs 1 ≤ s_pps_missing.clk.wtime :=
  by decide +kernel

/-! ### Power -/

/-- A feed in range carrying load. -/
def feedOn : Feed := { on := true, ok := true, volt := 4800, cur := 10, req := false, safe := false }
def fed (a b : Feed) : State := { State.reset with pwr := { State.reset.pwr with feedA := a, feedB := b } }
def s_feed_range : State := fed feedOn feedOn
theorem witness_feed_range :
    (3799 < 3800) ∧ (6300 < 6301) ∧ (s_feed_range.pwr.feed true).on = true ∧ (s_feed_range.pwr.feed (!true)).on = true ∧ (s_feed_range.pwr.feed (!true)).ok = true :=
  by decide +kernel
def s_feed_last : State := fed feedOn { feedOn with ok := false }
theorem witness_feed_last :
    (s_feed_last.pwr.feed false).on = true ∧ (s_feed_last.pwr.feed (!false)).on = true ∧ (s_feed_last.pwr.feed (!false)).ok = false :=
  by decide +kernel
def s_feed_return : State := fed { feedOn with on := false, ok := false } feedOn
theorem witness_feed_return :
    (s_feed_return.pwr.feed false).on = false ∧ (s_feed_return.pwr.feed false).req = false ∧ 3950 ≤ 3950 ∧ 6100 ≤ 6100 :=
  by decide +kernel
def s_feed_removal : State := opened { online with pwr := (fed feedOn feedOn).pwr } (hear (ses 1) 1 2)
theorem witness_feed_removal :
    Delivered (msg 12) 1 2 12 s_feed_removal (hear (ses 1) 1 2) ∧ (s_feed_removal.pwr.feed true).req = false ∧ (s_feed_removal.pwr.feed true).on = true ∧ (s_feed_removal.pwr.feed (!true)).on = true ∧ (s_feed_removal.pwr.feed (!true)).ok = true :=
  ⟨delivered_of (by decide +kernel), by decide +kernel⟩
def s_feed_removal_refused : State := opened { online with pwr := (fed feedOn { feedOn with ok := false }).pwr } (hear (ses 1) 1 2)
theorem witness_feed_removal_refused :
    Delivered (msg 12) 1 2 12 s_feed_removal_refused (hear (ses 1) 1 2) ∧ (s_feed_removal_refused.pwr.feed false).req = false ∧ (s_feed_removal_refused.pwr.feed false).on = true ∧ (s_feed_removal_refused.pwr.feed (!false)).ok = false :=
  ⟨delivered_of (by decide +kernel), by decide +kernel⟩
def s_feed_clear : State := opened { online with pwr := (fed feedOn { feedOn with req := true, safe := true, on := false }).pwr } (hear (ses 1) 1 2)
theorem witness_feed_clear : Delivered (msg 12) 1 2 12 s_feed_clear (hear (ses 1) 1 2) := delivered_of (by decide +kernel)
def s_both_lost : State := { onRegion ready with boot := { State.reset.boot with start := 2, owner := some 5, debugLock := true }, clk := { State.reset.clk with checkpoint := 7 } }
/-- A power-on of region 5 in progress. -/
def ramping (o : PowerOn) (g : Region) (now : Nat) : State :=
  { State.reset with regions := [(5, g)], pwr := { State.reset.pwr with ons := [o] }, clk := { State.reset.clk with wtime := now }, boot := { State.reset.boot with start := 2 } }
/-- It waits for admission. -/
def onFive : PowerOn := ⟨5, 0, true, 0, 0⟩
def s_gust_refused : State := { ramping onFive Region.reset 0 with pwr := { (ramping onFive Region.reset 0).pwr with window := [⟨0, List.replicate 16 6901, [], []⟩] } }
theorem witness_gust_refused :
    s_gust_refused.onOf 5 = some onFive ∧ onFive.stage = 0 ∧ onFive.last = 0 ∧ s_gust_refused.gustBar 5 = some 1 ∧ (s_gust_refused.pwr.ons.filter fun q => decide (skein q.region = skein 5)).head? = some onFive :=
  by decide +kernel
def s_gust_admitted : State := { ramping onFive Region.reset 9 with pwr := { (ramping onFive Region.reset 9).pwr with window := [⟨31700, List.replicate 16 6900, [], []⟩] } }
theorem witness_gust_admitted :
    s_gust_admitted.onOf 5 = some onFive ∧ onFive.stage = 0 ∧ onFive.last = 0 ∧ s_gust_admitted.gustBar 5 = none ∧ onFive.fromOff = true ∧ (s_gust_admitted.region 5).part = none ∧ (s_gust_admitted.region 5).clk.k = 0 ∧ (s_gust_admitted.pwr.ons.filter fun q => decide (skein q.region = skein 5)).head? = some onFive :=
  by decide +kernel
def s_gust_ramped : State := ramping { onFive with stage := 1 } Region.reset (usecs 200)
def s_gust_checked : State := ramping { onFive with stage := 2, fromOff := false } { Region.reset with pwr := { RPower.reset with state := 4 }, clk := { RClk.reset with k := 8, stopped := false } } (usecs 2690)
theorem witness_gust_checked : s_gust_checked.onOf 5 = some { onFive with stage := 2, fromOff := false } ∧ onFive.last + usecs 2690 ≤ s_gust_checked.clk.wtime
    ∧ (s_gust_checked.region 5).part = none ∧ s_gust_checked.boot.start = 2 ∧ (∀ p, (s_gust_checked.allRegions p).contains 5 = false)
    ∧ ∀ p, (s_gust_checked.part p).state = .empty := by
  refine ⟨by decide +kernel, by decide +kernel, by decide +kernel, by decide +kernel, fun p => ?_, fun p => rfl⟩
  have e : s_gust_checked.partRegions p = [] := by
    refine List.filter_eq_nil_iff.mpr fun r _ => ?_
    have n : (s_gust_checked.region r).part = none := by unfold State.region s_gust_checked ramping tget; split <;> rfl
    simp [n]
  have q : s_gust_checked.part p = Part.reset := rfl
  rw [State.allRegions, e, q]
  decide +kernel
theorem witness_gust_ramped :
    s_gust_ramped.onOf 5 = some { onFive with stage := 1 } ∧ ({ onFive with stage := 1 } : PowerOn).last + usecs 200 ≤ s_gust_ramped.clk.wtime :=
  by decide +kernel
def s_gust_checked_con : State := s_gust_checked
def s_refused : State := ramping onFive { Region.reset with pwr := { RPower.reset with cause := 2, tries := 1 } } (msecs 500)
theorem witness_refused :
    (s_refused.onOf 5 = some onFive ∧ onFive.stage = 0 ∧ (s_refused.region 5).pwr.cause = 2 ∧ 0 < (s_refused.region 5).pwr.tries ∧ onFive.since + msecs 500 ≤ s_refused.clk.wtime ∧ s_refused.boot.start ≠ 1) ∧ ((∀ p, (s_refused.part p).state ≠ .loading)) :=
  ⟨by decide +kernel, (fun p => by simp [State.part, s_refused, ramping, State.reset, tget, Part.reset])⟩
def s_refused_con : State := s_refused
def s_switch_off : State := { State.reset with regions := [(5, { Region.reset with pwr := { RPower.reset with state := 3 }, clk := clk12, thm := { RTherm.reset with hot := true, stopping := true, coolN := 2 } })] }
theorem witness_switch_off :
    (s_switch_off.region 5).thm.hot = true ∧ (s_switch_off.region 5).thm.off = false ∧ pwrUp (s_switch_off.region 5).pwr.state = true ∧ (s_switch_off.region 5).thm.stopping = true ∧ (s_switch_off.region 5).part = none ∧ hostedBy 5 = none ∧ (s_switch_off.region 5).thm.coolN < 3 :=
  by decide +kernel
def s_regulator : State := State.reset
theorem witness_regulator :
    ((State.reset.grp 1023).ok.getLsbD 3 = true) ∧ groupLimit ((State.reset.grp 1023).ok &&& ~~~(BitVec.ofNat 4 (2 ^ 3))) ≠ 0 :=
  by decide +kernel
def s_regulator_last : State := { State.reset with pwr := { State.reset.pwr with groups := [(80, { Group.reset with ok := 3, limit := 16 })] } }
theorem witness_regulator_last :
    (s_regulator_last.grp 80).ok.getLsbD 0 = true ∧ groupLimit ((s_regulator_last.grp 80).ok &&& ~~~(BitVec.ofNat 4 (2 ^ 0))) = 0 ∧ (s_regulator_last.grp 80).dark = false ∧ (s_regulator_last.region (80 / 16)).part = none ∧ (s_regulator_last.region (80 / 16)).pwr.state ≠ 4 :=
  by decide +kernel
def s_measure : State := { State.reset with pwr := { State.reset.pwr with window := List.replicate 100 ⟨1, [], [], []⟩, peak := 7, energy := 8 } }
def s_cap_above : State := onRegion { ready with powW := 101, powCap := 1, lullShare := 254 }
theorem witness_cap_above :
    (s_cap_above.part 0).loaded = true ∧ (s_cap_above.part 0).powW > 100 * (s_cap_above.part 0).powCap ∧ (s_cap_above.part 0).lullShare < 255 :=
  by decide +kernel
def s_cap_below : State := onRegion { ready with powW := 100, powCap := 1, lullShare := 0 }
/-- Region 5 in IDLE with a set point of 848 mV and some stretches in the window. -/
def trimmed (n quiet : Nat) : State := { State.reset with regions := [(5, { Region.reset with pwr := { RPower.reset with state := 2, setpt := 848, quiet := quiet, trimBase := 100 }, clk := { clk12 with stretchNow := 100 + n } })] }
theorem witness_cap_below : (s_cap_below.part 0).loaded = true ∧ (s_cap_below.part 0).powW ≤ 100 * (s_cap_below.part 0).powCap := by decide +kernel
def s_trim : State := trimmed 65 0
theorem witness_trim :
    (pwrUp ((trimmed 65 0).region 5).pwr.state = true ∧ 64 < ((trimmed 65 0).region 5).clk.stretchNow - ((trimmed 65 0).region 5).pwr.trimBase) ∧ (0 < ((trimmed 64 0).region 5).clk.stretchNow - ((trimmed 64 0).region 5).pwr.trimBase ∧ ((trimmed 64 0).region 5).clk.stretchNow - ((trimmed 64 0).region 5).pwr.trimBase ≤ 64) ∧ ((trimmed 0 9).region 5).clk.stretchNow - ((trimmed 0 9).region 5).pwr.trimBase = 0 ∧ 9 ≤ ((trimmed 0 9).region 5).pwr.quiet :=
  ⟨by decide +kernel, by decide +kernel, by decide +kernel⟩
def s_resistance : State := { State.reset with pwr := { State.reset.pwr with groups := [(3, { Group.reset with meas := List.replicate 15 1000 })] } }
theorem witness_resistance : (800 < 801) ∧ 15 ≤ (s_resistance.grp 3).meas.length ∧ (s_resistance.grp 3).flagged = false := by decide +kernel
def s_digitise : State := { State.reset with regions := [(5, { Region.reset with pwr := { RPower.reset with state := 3, vmin := 700 } })] }
theorem witness_digitise : (s_digitise.region 5).pwr.state ≠ 0 := by decide +kernel
def s_vmin_clear : State := { told 1 1 2 with regions := [(63, { Region.reset with pwr := { RPower.reset with state := 3, vmin := 600, vcore := 700, vcoreCl := 4 } })] }
theorem witness_vmin_clear :
    Delivered (msg 12) 1 2 12 s_vmin_clear (hear (ses 1) 1 2) ∧ s_vmin_clear.snapped 63 = false :=
  ⟨delivered_of (by decide +kernel), by decide +kernel⟩
def s_standby_return : State := { told 1 1 2 with parts := [(15, { ready with alt := 1, phase := .running })] }
theorem witness_standby_return :
    Delivered (msg 12) 1 2 12 s_standby_return (hear (ses 1) 1 2) ∧ (s_standby_return.part 15).alt ≠ 0 ∧ (s_standby_return.part 15).phase ≠ .none :=
  ⟨delivered_of (by decide +kernel), by decide +kernel⟩

/-! ### Temperature and the vault controllers -/

/-- A steward in service at a WTIME. -/
def steady (th : Thermal) (now : Nat) : State := { State.reset with boot := { State.reset.boot with start := 2, stw := { State.reset.boot.stw with st0 := 1 } }, thm := th, clk := { State.reset.clk with wtime := now } }
def s_sweep_start : State := { steady { Thermal.reset with period := 100 } 5 with regions := [(63, { Region.reset with thm := { RTherm.reset with logic := 1520 } })] }
theorem witness_sweep_start :
    (s_sweep_start.edgeUp = true ∧ s_sweep_start.thm.sweeping = false ∧ s_sweep_start.thm.nextSweep ≤ s_sweep_start.clk.wtime) ∧ ((∃ r, r < 64 ∧ (1520 ≤ (s_sweep_start.region r).thm.logic ∨ 1360 ≤ (s_sweep_start.region r).thm.dram))) :=
  ⟨by decide +kernel, ⟨63, by decide +kernel⟩⟩
def s_sweep_start_cool : State := { steady { Thermal.reset with period := 100 } 5 with regions := [(63, { Region.reset with thm := { RTherm.reset with logic := 1519, dram := 1359 } })] }
/-- Every logic sensor reads v. -/
def readings (v : Int) : Sweep := ⟨List.replicate 64 (some v), List.replicate 64 (some v), List.replicate 8 (some v)⟩
theorem witness_sweep_start_cool :
    (s_sweep_start_cool.edgeUp = true ∧ s_sweep_start_cool.thm.sweeping = false ∧ s_sweep_start_cool.thm.nextSweep ≤ s_sweep_start_cool.clk.wtime) ∧ (¬∃ r, r < 64 ∧ (1520 ≤ (s_sweep_start_cool.region r).thm.logic ∨ 1360 ≤ (s_sweep_start_cool.region r).thm.dram)) :=
  ⟨by decide +kernel, (fun ⟨r, h⟩ => (by decide +kernel : ∀ r : Nat, r < 64 → ¬(1520 ≤ (s_sweep_start_cool.region r).thm.logic ∨ 1360 ≤ (s_sweep_start_cool.region r).thm.dram)) r h.1 h.2)⟩
def s_sweep_end : State := steady { Thermal.reset with sweeping := true } (usecs 400)
theorem witness_sweep_end :
    (s_sweep_end.thm.sweeping = true ∧ s_sweep_end.thm.sweepAt + usecs 400 ≤ s_sweep_end.clk.wtime) ∧ (∀ r : Nat, r < 64 → (readings 1440).logic.getD r none = some (1440 : Int)) ∧ (∀ r : Nat, r < 64 → (s_sweep_end.region r).thm.lBroken = false) ∧ ((-640 : Int) ≤ 1440) ∧ ((1440 : Int) ≤ 1440) :=
  ⟨by decide +kernel, by decide +kernel, by decide +kernel, by decide +kernel⟩
def s_hard_cut : State := { steady Thermal.reset 5 with regions := [(5, { Region.reset with pwr := { RPower.reset with state := 3 }, clk := clk12, thm := { RTherm.reset with stopping := true } })] }
theorem witness_hard_cut :
    (s_hard_cut.region 5).thm.stopping = true ∧ (s_hard_cut.region 5).thm.lBroken = false ∧ ((1888 : Int) ≤ 2400) ∧ (s_hard_cut.region 5).pwr.state ≠ 0 ∧ (s_hard_cut.region 5).part = none ∧ hostedBy 5 = none ∧ s_hard_cut.onOf 5 = none :=
  by decide +kernel
def s_cooling_set : State := steady { Thermal.reset with coolSet := [(4, 1)], cool := 1 } (secs 10)
theorem witness_cooling_set :
    s_cooling_set.thm.cool.getLsbD 4 = false ∧ tget s_cooling_set.thm.coolSet 0 4 ≠ 0 ∧ tget s_cooling_set.thm.coolSet 0 4 + secs 10 ≤ s_cooling_set.clk.wtime + 1 :=
  by decide +kernel
def s_cooling_clear : State := steady { Thermal.reset with coolClr := [(4, 1)], cool := 0x11 } (secs 60)
theorem witness_cooling_clear :
    s_cooling_clear.thm.cool.getLsbD 4 = true ∧ tget s_cooling_clear.thm.coolClr 0 4 ≠ 0 ∧ tget s_cooling_clear.thm.coolClr 0 4 + secs 60 ≤ s_cooling_clear.clk.wtime + 1 :=
  by decide +kernel
def s_life_saved : State := { steady Thermal.reset 5 with spl := { State.reset.spl with cards := [(1, cardOne)] }, regions := [(63, { Region.reset with thm := { RTherm.reset with cyc := [1, 2, 3, 4], life := 9 } })] }
/-- The last core's vault, its scrubber at the last burst. -/
def vaulted (v : Vault) : State := { steady Thermal.reset 5 with vaults := [(73727, v)] }
theorem witness_life_saved : s_life_saved.persistOk = true := by decide +kernel
def s_refresh : State := vaulted { Vault.reset with refreshRow := 511 }
theorem witness_refresh : s_refresh.vaultsOn = true := by decide +kernel
def s_scrub : State := vaulted { Vault.reset with scrubAt := 524287 }
theorem witness_scrub :
    s_scrub.vaultsOn = true ∧ (s_scrub.cluster (73727 / 72)).scrub.toNat % 256 ≠ 0 ∧ (s_scrub.vault 73727).wb = [] ∧ (s_scrub.vault 73727).decode (s_scrub.vault 73727).scrubAt = .clean ∧ (s_scrub.vault 73727).lost = false ∧ (s_scrub.vault 73727).failing = false ∧ (s_scrub.vault 73727).scrubDue ≤ s_scrub.clk.wtime :=
  by decide +kernel
def s_scrub_early : State := vaulted { Vault.reset with scrubDue := 2 ^ 60 }
theorem witness_scrub_early :
    (s_scrub_early.cluster (73727 / 72)).scrub.toNat % 256 ≠ 0 ∧ s_scrub_early.clk.wtime < (s_scrub_early.vault 73727).scrubDue :=
  by decide +kernel
def s_scrub_repair : State := vaulted { Vault.reset with wb := [5], chk := [(40, 1)], data := [(64 * 5, 3)] }
theorem witness_scrub_repair :
    (s_scrub_repair.vault 73727).wb = [5] ∧ (s_scrub_repair.vault 73727).decode 5 = .corrected [(0, 1)] ∧ (s_scrub_repair.vault 73727).decode (s_scrub_repair.vault 73727).scrubAt = .clean ∧ (s_scrub_repair.vault 73727).scrubAt ≠ 5 ∧ (s_scrub_repair.cluster (73727 / 72)).scrub.toNat % 256 ≠ 0 ∧ (s_scrub_repair.vault 73727).scrubDue ≤ s_scrub_repair.clk.wtime :=
  by decide +kernel
def s_port_timeout : State := vaulted Vault.reset
theorem witness_port_timeout : s_port_timeout.vaultsOn = true := by decide +kernel

/-! ### Events and spool cards -/

/-- Both cards as given, a role's register message waiting. -/
def carded (role : Nat) (a b : Card) : State := { told role 1 2 with spl := { State.reset.spl with cards := [(0, a), (1, b)] } }
/-- Record 5 of no queue, unread. -/
def recorded (e : Evts) : State := { carded 1 cardOne Card.reset with evt := e }
def s_entry_region : State := recorded { State.reset.evt with queues := [(63, [evOne, { evOne with cls := 2 }])], head := 0xFFFFFFFF }
theorem witness_entry_region :
    s_entry_region.persistOk = true ∧ s_entry_region.evt.squalls = [] ∧ s_entry_region.evt.room = true ∧ tget s_entry_region.evt.queues [] 63 = [evOne, { evOne with cls := 2 }] :=
  by decide +kernel
def s_entry_edge : State := recorded { State.reset.evt with edge := [evOne], head := 9 }
theorem witness_entry_edge :
    s_entry_edge.persistOk = true ∧ s_entry_edge.evt.squalls = [] ∧ s_entry_edge.evt.room = true ∧ s_entry_edge.evt.edge = [evOne] :=
  by decide +kernel
def s_persist : State := recorded { State.reset.evt with ring := [{ evOne with seq := 4 }, evOne, { evOne with seq := 6 }], persist := 5, head := 7 }
theorem witness_persist :
    (s_persist.persistOk = true ∧ ((s_persist.evt.ring.filter fun r => !serialLt r.seq s_persist.evt.persist && !r.acked).take 64).getLast? = some { evOne with seq := 6 } ∧ s_persist.evt.saved.length + 2 ≤ 2 ^ 30 ∧ (∀ r ∈ s_persist.evt.ring, r.acked = false)) ∧ ((s_persist.evt.batchAt = 0 ∨ s_persist.evt.batchAt + secs 1 / max 1 s_persist.evt.rate ≤ s_persist.clk.wtime + 1) ∧ evOne.wtime + secs 1 ≤ s_persist.clk.wtime ∧ ((s_persist.evt.ring.filter fun r => !serialLt r.seq s_persist.evt.persist && !r.acked).take 64).head? = some evOne) :=
  ⟨by decide +kernel, by decide +kernel⟩
def s_ack : State := recorded { State.reset.evt with head := 7, ack := 2 }
theorem witness_ack :
    s_ack.persistOk = true ∧ Delivered (msg 12) 1 2 12 s_ack (hear (ses 1) 1 2) :=
  ⟨by decide +kernel, delivered_of (by decide +kernel)⟩
def s_eref_reset : State := told 1 1 2
theorem witness_eref_reset : Delivered (msg 12) 1 2 12 s_eref_reset (hear (ses 1) 1 2) := delivered_of (by decide +kernel)
def s_card_req : State := { carded 1 Card.reset { cardOne with state := 3 } with srv := { State.reset.srv with reqs := [(2, { reqOne with state := .paused, spooling := some 1 })] } }
theorem witness_card_req :
    ((s_card_req.card 1).req = false ∧ (s_card_req.card 1).state ≠ 0 ∧ (s_card_req.card (1 - 1)).state ≠ 3) ∧ Delivered (msg 12) 1 2 12 s_card_req (hear (ses 1) 1 2) :=
  ⟨by decide +kernel, delivered_of (by decide +kernel)⟩
def s_card_req_busy : State := carded 1 cardOne { cardOne with state := 3 }
theorem witness_card_req_busy :
    ((s_card_req_busy.card 0).req = false ∧ (s_card_req_busy.card 0).state ≠ 0 ∧ (s_card_req_busy.card (1 - 0)).state = 3) ∧ Delivered (msg 12) 1 2 12 s_card_req_busy (hear (ses 1) 1 2) :=
  ⟨by decide +kernel, delivered_of (by decide +kernel)⟩
def s_card_safe : State := { carded 1 Card.reset { cardOne with req := true } with spl := { State.reset.spl with cards := [(1, { cardOne with req := true })], objs := [{ objOne with cards := 2 }, { objOne with id := 10, kind := .history, cards := 3 }] } }
theorem witness_card_safe : (s_card_safe.card 1).req = true ∧ (s_card_safe.card 1).state ≠ 7 ∧ (s_card_safe.card 1).state ≠ 0 := by decide +kernel
def s_card_clear : State := carded 1 { cardOne with req := true, state := 7 } cardOne
/-- Firmware information that fits a wafer with none stored. -/
def fwAny : FwInfo := ⟨0, 0, [0, 0, 0, 0, 0, 0]⟩
/-- Firmware information that asks for a newer device image. -/
def fwNever : FwInfo := ⟨0, 0, [1, 0, 0, 0, 0, 0]⟩
theorem witness_card_clear :
    ((s_card_clear.card 0).req = true ∧ (s_card_clear.card 0).state = 7) ∧ Delivered (msg 12) 1 2 12 s_card_clear (hear (ses 1) 1 2) :=
  ⟨by decide +kernel, delivered_of (by decide +kernel)⟩
def s_card_in : State := carded 1 Card.reset cardOne
theorem witness_card_in :
    (s_card_in.card 0).present = false ∧ 16 ≤ 16 ∧ 64 ≤ 64 ∧ s_card_in.deviceOk 4 fwNever = false ∧ s_card_in.deviceOk 4 fwAny = true :=
  by decide +kernel
def s_card_rebuilt : State := { carded 1 Card.reset Card.reset with spl := { State.reset.spl with cards := [(0, { cardOne with busy := true }), (1, { cardOne with state := 3 })], objs := [objOne, { objOne with id := 10, cards := 2 }] } }
theorem witness_card_rebuilt : (s_card_rebuilt.card 1).state = 3 ∧ s_card_rebuilt.toCopy 1 = [objOne] := by decide +kernel
def s_card_lost : State := carded 1 cardOne { cardOne with state := 3 }
theorem witness_card_lost : (s_card_lost.card 0).present = true := by decide +kernel
def s_card_format : State := carded 1 { cardOne with state := 5 } cardOne
theorem witness_card_format :
    ((s_card_format.card 0).req = false ∧ ((s_card_format.card 0).state = 5 ∨ (s_card_format.card 0).state = 2)) ∧ Delivered (msg 12) 1 2 12 s_card_format (hear (ses 1) 1 2) :=
  ⟨by decide +kernel, delivered_of (by decide +kernel)⟩
def s_scrub_block : State := carded 1 Card.reset cardOne
theorem witness_scrub_block :
    (((s_scrub_block.card 1).state = 2 ∨ (s_scrub_block.card 1).state = 3 ∨ (s_scrub_block.card 1).state = 4) ∧ (s_scrub_block.card 1).retired.contains 7 = false ∧ tget (s_scrub_block.card 1).tier4 0 7 = 0) :=
  by decide +kernel
def s_govern : State := carded 1 Card.reset cardOne
theorem witness_govern : (s_govern.card 1).present = true ∧ (s_govern.card 1).service < s_govern.spl.life := by decide +kernel
def s_refill : State := carded 1 { cardOne with level := 8640000000000 } cardOne
theorem witness_refill :
    ((s_refill.card 0).present = true ∧ (s_refill.card 0).depth ≤ (s_refill.card 0).level) ∧ (s_refill.card 1).present = true ∧ (s_refill.card 1).level < (s_refill.card 1).depth :=
  ⟨by decide +kernel, by decide +kernel⟩
def s_shred : State := { told 2 1 2 with parts := [(0, ready)], srv := { State.reset.srv with reqs := [(0, { reqOne with state := .spooled }), (1, { reqOne with state := .paused })] }, spl := { State.reset.spl with objs := [{ objOne with kind := .history, digest := 0, gen := 0x7FFFFFFF }], gens := [(0, 0x7FFFFFFF)] } }
theorem witness_shred :
    ((hear (ses 2) 1 2).selAt 0x60040 0 = 0 ∧ (s_shred.req 0).used = true ∧ (s_shred.req 0).par.tenant = 0 ∧ (s_shred.req 0).state = .spooled ∧ (s_shred.req 1).state = .paused) ∧ Delivered (msg 12) 1 2 12 s_shred (hear (ses 2) 1 2) :=
  ⟨by decide +kernel, delivered_of (by decide +kernel)⟩

/-! ### Boot, firmware, fuses and principals -/

def s_aux_rail : State := State.reset
theorem witness_aux_rail :
    (s_aux_rail.boot.start = 0 ∧ s_aux_rail.boot.stw.st0 ≠ 1 ∧ s_aux_rail.boot.stw.st1 ≠ 1 ∧ s_aux_rail.boot.fails ≠ 3) ∧ s_aux_rail.startable :=
  ⟨by decide +kernel, ⟨by decide +kernel, by decide +kernel⟩⟩
def s_aux_rail_third : State := { State.reset with boot := { State.reset.boot with fails := 3 } }
theorem witness_aux_rail_third :
    s_aux_rail_third.boot.start = 0 ∧ s_aux_rail_third.boot.stw.st0 ≠ 1 ∧ s_aux_rail_third.boot.stw.st1 ≠ 1 ∧ s_aux_rail_third.boot.fails = 3 :=
  by decide +kernel
def s_service : State := { told 1 1 2 with clk := { State.reset.clk with wtime := 99, checkpoint := 7 }, cores := [(5, { Core.reset with pad := [(3, 9)] })], boot := { State.reset.boot with owner := some 8, start := 2 } }
theorem witness_service : s_service.startable := ⟨by decide +kernel, by decide +kernel⟩
def s_start_done : State := { State.reset with boot := { State.reset.boot with start := 1, autoload := false }, srv := { State.reset.srv with parked := [(4, { reqOne with state := .spooled })] } }
theorem witness_start_done :
    s_start_done.clk.wtime < s_start_done.boot.startAt + secs 2 ∧ s_start_done.boot.start = 1 ∧ s_start_done.boot.order = [] ∧ s_start_done.pwr.ons = [] ∧ s_start_done.boot.autoload = false :=
  ⟨by decide +kernel, by decide +kernel⟩
def s_start_late : State := { State.reset with boot := { State.reset.boot with start := 1, startAt := 5, fails := 2 }, clk := { State.reset.clk with wtime := 5 + secs 2 } }
theorem witness_start_late : s_start_late.boot.start = 1 ∧ s_start_late.boot.startAt + secs 2 ≤ s_start_late.clk.wtime := by decide +kernel
def s_start_again : State := { State.reset with boot := { State.reset.boot with start := 3, startAt := 5 }, clk := { State.reset.clk with wtime := 5 + secs 1 } }
theorem witness_start_again :
    (s_start_again.boot.start = 3 ∧ s_start_again.boot.startAt + secs 1 ≤ s_start_again.clk.wtime) ∧ s_start_again.startable :=
  ⟨by decide +kernel, ⟨by decide +kernel, by decide +kernel⟩⟩
def s_fails_reset : State := { State.reset with boot := { State.reset.boot with start := 2, runAt := 5, fails := 2 }, clk := { State.reset.clk with wtime := 5 + secs 60 } }
theorem witness_fails_reset : s_fails_reset.boot.start = 2 ∧ s_fails_reset.boot.runAt + secs 60 ≤ s_fails_reset.clk.wtime := by decide +kernel
def s_doldrums_retry : State := { told 1 1 2 with boot := { State.reset.boot with start := 4, fails := 3 } }
/-- The start of a firmware header of component 6, version 9. -/
def header6 : List Byte := image 512 [(0, 4, 0x4D495746), (4, 2, 1), (6, 1, 6), (8, 4, 9)]
theorem witness_doldrums_retry :
    s_doldrums_retry.boot.start = 4 ∧ Delivered (msg 12) 1 2 12 s_doldrums_retry (hear (ses 1) 1 2) ∧ s_doldrums_retry.startable :=
  ⟨by decide +kernel, delivered_of (by decide +kernel), ⟨by decide +kernel, by decide +kernel⟩⟩
def s_recovery : State := { State.reset with boot := { State.reset.boot with recover := true } }
/-- Session 7 of a role with a register message and the stewards in service. -/
def served (role : Nat) (b : Boot) : State := { told role 1 2 with boot := { b with start := 2 } }
/-- Both stewards in service, steward 0 active. -/
def both : Boot := { State.reset.boot with stw := { State.reset.boot.stw with st0 := 1, st1 := 2 } }
theorem witness_recovery :
    s_recovery.boot.recover = true ∧ 1 ≤ leAt header6 6 1 ∧ leAt header6 6 1 ≤ 6 ∧ leAt header6 0 4 = 0x4D495746 :=
  by decide +kernel
def s_steward_req : State := served 1 both
theorem witness_steward_req :
    (s_steward_req.boot.stw.active = 0 ∧ s_steward_req.boot.stw.st1 = 2 ∧ s_steward_req.boot.stw.req = false ∧ s_steward_req.boot.stw.st0 = 1) ∧ Delivered (msg 12) 1 2 12 s_steward_req (hear (ses 1) 1 2) :=
  ⟨by decide +kernel, delivered_of (by decide +kernel)⟩
def s_steward_in : State := served 1 { both with stw := { both.stw with st1 := 0, req := true } }
/-- Component k in an activation state with image version 9 in its other slot. -/
def staged (role k st : Nat) (since stage : Nat) : State :=
  served role { both with comps := [(k, { Comp.reset with state := st, since := since, stage := stage, other := { Image.reset with version := 9 } })] }
theorem witness_steward_in :
    (s_steward_in.boot.stw.none = false ∧ s_steward_in.boot.stw.active = 0 ∧ (s_steward_in.boot.stw.st1 = 0 ∨ s_steward_in.boot.stw.st1 = 3) ∧ s_steward_in.deviceOk 1 ⟨4, 0, [0, 0, 0, 0, 0, 0]⟩ = true ∧ s_steward_in.deviceOk 1 ⟨0, 0, [0, 1, 0, 0, 0, 0]⟩ = false) :=
  by decide +kernel
def s_fw_act : State := staged 2 1 2 0 0
/-- Session 7 names component 6. -/
def chose6 : Session := { hear (ses 2) 1 2 with sel := [(0x10010, 6)] }
theorem witness_fw_act :
    ((hear (ses 2) 1 2).selAt 0x10010 1 = 1 ∧ (hear (ses 2) 1 2).role = 2 ∧ (s_fw_act.comp 1).state = 2) ∧ Delivered (msg 12) 1 2 12 s_fw_act (hear (ses 2) 1 2) :=
  ⟨by decide +kernel, delivered_of (by decide +kernel)⟩
def s_fw_act_edge : State := opened (staged 2 6 2 0 0) chose6
theorem witness_fw_act_edge :
    (chose6.selAt 0x10010 1 = 6 ∧ chose6.role = 2 ∧ (s_fw_act_edge.comp 6).state = 2) ∧ Delivered (msg 12) 1 2 12 s_fw_act_edge chose6 :=
  ⟨by decide +kernel, delivered_of (by decide +kernel)⟩
def s_fw_operator : State := staged 1 1 2 0 0
theorem witness_fw_operator :
    (hear (ses 1) 1 2).role ≠ 2 ∧ Delivered (msg 12) 1 2 12 s_fw_operator (hear (ses 1) 1 2) :=
  ⟨by decide +kernel, delivered_of (by decide +kernel)⟩
def s_fw_back : State := staged 2 1 5 0 0
theorem witness_fw_back :
    ((hear (ses 2) 1 2).selAt 0x10010 1 = 1 ∧ (hear (ses 2) 1 2).role = 2 ∧ (s_fw_back.comp 1).state = 5 ∧ (s_fw_back.comp 1).other.valid = true ∧ (s_fw_back.comp 1).back = false) ∧ Delivered (msg 12) 1 2 12 s_fw_back (hear (ses 2) 1 2) :=
  ⟨by decide +kernel, delivered_of (by decide +kernel)⟩
def s_fw_confirmed : State := { staged 1 6 5 5 0 with clk := { State.reset.clk with wtime := 5 + secs 600 } }
theorem witness_fw_confirmed :
    (s_fw_confirmed.comp 6).state = 5 ∧ (s_fw_confirmed.comp 6).since + secs 600 ≤ s_fw_confirmed.clk.wtime :=
  by decide +kernel
def s_restart_last : State := staged 1 6 3 0 2
theorem witness_restart_last :
    (s_restart_last.comp 6).state = 3 ∧ (s_restart_last.comp 6).stage = 2 ∧ (s_restart_last.comp 6).back = false :=
  by decide +kernel
def s_restart_next : State := { staged 1 5 3 0 0 with eth := { (staged 1 5 3 0 0).eth with bypass := true, link := 0xFF00 } }
theorem witness_restart_next :
    (s_restart_next.comp 5).state = 3 ∧ (s_restart_next.comp 5).stage = 0 ∧ s_restart_next.eth.bypass = true :=
  by decide +kernel
def s_fuses : State := served 2 both
/-- Images of counter 3's components at SVN 64 in both slots. -/
def advanced : State := served 2 { both with comps := [(5, { Comp.reset with active := { Image.reset with svn := 64 }, other := { Image.reset with svn := 64 } }), (6, { Comp.reset with active := { Image.reset with svn := 64 }, other := { Image.reset with svn := 64 } })] }
theorem witness_fuses :
    ((hear (ses 2) 1 2).role = 2 ∧ s_fuses.boot.fuseBusy ≤ s_fuses.clk.wtime ∧ s_fuses.boot.owner = none ∧ s_fuses.boot.rb.length = 4 ∧ s_fuses.counterReady 3 = true ∧ ((0xF05F : Nat) < 65536 ∧ (0xF05F : Nat) ≠ 0xF05E)) ∧ Delivered (msg 12) 1 2 12 s_fuses (hear (ses 2) 1 2) :=
  ⟨by decide +kernel, delivered_of (by decide +kernel)⟩
def s_fuse_counter : State := advanced
/-- The owner of `ses`, as a principal. -/
def owner5 : Principal := { valid := true, role := 2, tenant := 0, mask := 0, digest := 5 }
/-- The session has staged the first digest word of entry 1,023. -/
def stages : Session := { hear (ses 2) 1 2 with sel := [(0x10040, 1023), (0x10048, 0xFFFF), (0x10080, 9)] }
theorem witness_fuse_counter :
    ((hear (ses 2) 1 2).role = 2 ∧ s_fuse_counter.boot.fuseBusy ≤ s_fuse_counter.clk.wtime ∧ s_fuse_counter.boot.rb.length = 4 ∧ s_fuse_counter.counterReady 3 = true) ∧ Delivered (msg 12) 1 2 12 s_fuse_counter (hear (ses 2) 1 2) :=
  ⟨by decide +kernel, delivered_of (by decide +kernel)⟩
def s_principal : State := opened (served 2 { both with principals := [(0, owner5)] }) stages
theorem witness_principal :
    (stages.role = 2 ∧ hasOwner s_principal.boot.principals = true ∧ (s_principal.ownerFits { valid := true, role := 0, tenant := 4095, mask := 0xFFFF, digest := stages.stagedDigest (s_principal.prAt 1023) } = true) ∧ hasOwner (tset s_principal.boot.principals Principal.reset 1023 { valid := true, role := 0, tenant := 4095, mask := 0xFFFF, digest := stages.stagedDigest (s_principal.prAt 1023) }) = true) ∧ (stages.selAt 0x10040 0 = 1023 ∧ s_principal.prAt 1023 = Principal.reset ∧ Principal.reset.tenant ≠ 4095 ∧ stages.stagedDigest (s_principal.prAt 1023) = 9 ∧ (0xFFF1#32).getLsbD 0 = true ∧ (0xFFF1#32).toNat / 2 % 4 ≠ 3) ∧ Delivered (msg 12) 1 2 12 s_principal stages :=
  ⟨by decide +kernel, by decide +kernel, delivered_of (by decide +kernel)⟩
def s_bootstrap : State := served 2 { both with owner := some 5 }
/-- A calibration record: MAGIC, FMT 1, this module's SERIAL, a DIGEST, and contents that are all 0. -/
def recordOf (d : Nat) : List Byte :=
  leBytes 4 0x524C4143 ++ leBytes 2 1 ++ List.replicate 18 0 ++ leBytes 16 (Config.serial % 2 ^ 128) ++ List.replicate 24 0 ++ leBytes 64 d
/-- One that checks. -/
def record : List Byte := recordOf (dig (List.replicate 0x3F80 0))
/-- A record as a table. -/
def tabled (l : List Byte) : Table Byte := l.zipIdx.map fun x => (x.2, x.1)
theorem tget_tabled (l : List Byte) (n k : Nat) :
    tget ((l.zipIdx n).map fun x => (x.2, x.1)) 0 k = if n ≤ k then l.getD (k - n) 0 else 0 := by
  induction l generalizing n with
  | nil => simp [tget]
  | cons a l ih =>
    simp only [List.zipIdx_cons, List.map_cons, tget, ih]
    by_cases h : n = k
    · subst h; simp
    · by_cases g : n ≤ k
      · have e : k - n = (k - (n + 1)) + 1 := by omega
        have g' : n + 1 ≤ k := by omega
        simp [h, g, g', e]
      · have g' : ¬ n + 1 ≤ k := by omega
        simp [h, g, g']
theorem calAt_tabled (l : List Byte) (o n : Nat) : calAt (tabled l) o n = leNat ((List.range n).map fun i => l.getD (o + i) 0) := by
  unfold calAt tabled; congr 1; apply List.map_congr_left; intro i _; rw [tget_tabled]; simp
theorem record_rest (d i : Nat) : tget (tabled (recordOf d)) 0 (0x80 + i) = 0 := by
  have e : (recordOf d).length ≤ 0x80 + i := by
    have h : (recordOf d).length = 0x80 := by simp only [recordOf, List.length_append, leBytes_length, List.length_replicate]
    omega
  simp only [tabled, tget_tabled, Nat.zero_le, if_true, Nat.sub_zero, List.getD_eq_getElem?_getD]
  rw [List.getElem?_eq_none e]; rfl
theorem recordOf_checks {d : Nat} (h : dig (List.replicate 0x3F80 0) = d) (l : d < 256 ^ 64) : calCheck (tabled (recordOf d)) = stOk := by
  have a : calAt (tabled (recordOf d)) 0 4 = 0x524C4143 := by rw [calAt_tabled]; exact (leNat_leBytes 4 0x524C4143).trans (by decide)
  have b : calAt (tabled (recordOf d)) 4 2 = 1 := by rw [calAt_tabled]; rfl
  have c : calAt (tabled (recordOf d)) 0x18 16 = Config.serial % 2 ^ 128 := by
    rw [calAt_tabled]
    exact (leNat_leBytes 16 (Config.serial % 2 ^ 128)).trans (by rw [show (256 : Nat) ^ 16 = 2 ^ 128 by decide, Nat.mod_mod])
  have r : ((List.range 0x3F80).map fun i => tget (tabled (recordOf d)) 0 (0x80 + i)) = List.replicate 0x3F80 0 := by
    rw [List.eq_replicate_iff]; exact ⟨by simp, fun x h => by obtain ⟨i, -, rfl⟩ := List.mem_map.mp h; exact record_rest d i⟩
  have e : calAt (tabled (recordOf d)) 0x40 64 = d := by
    rw [calAt_tabled]
    exact (leNat_leBytes 64 d).trans (Nat.mod_eq_of_lt l)
  unfold calCheck
  rw [r, a, b, c, e, h, if_neg (by simp only [not_true_eq_false, ne_eq, or_self, not_false_eq_true]), if_neg (by simp only [ne_eq, not_true_eq_false, not_false_eq_true])]
theorem record_checks : calCheck (tabled record) = stOk := recordOf_checks rfl (dig_lt _)
theorem witness_bootstrap :
    (hasOwner s_bootstrap.boot.principals = false ∧ (s_bootstrap.boot.owner = none ∨ s_bootstrap.boot.owner = some (5 % 2 ^ 512)) ∧ (served 2 both).boot.owner = none) :=
  by decide +kernel
def s_cal_open : State := served 2 { both with cal := [(8, 1)] }
theorem witness_cal_open :
    ((hear (ses 2) 1 2).role = 2 ∧ s_cal_open.boot.calOpen = false) ∧ Delivered (msg 12) 1 2 12 s_cal_open (hear (ses 2) 1 2) :=
  ⟨by decide +kernel, delivered_of (by decide +kernel)⟩
def s_cal_commit : State := { served 2 { both with cal := [(8, 255), (9, 255), (10, 255), (11, 255)], calOpen := true, calStage := tabled record } with clk := { State.reset.clk with wtime := 2 ^ 64 - 1 } }
theorem witness_cal_commit :
    calCheck s_cal_commit.boot.calStage = stOk ∧ ((hear (ses 2) 1 2).role = 2 ∧ s_cal_commit.boot.calOpen = true) ∧ Delivered (msg 12) 1 2 12 s_cal_commit (hear (ses 2) 1 2) :=
  ⟨record_checks, by decide +kernel, delivered_of (by decide +kernel)⟩
def s_cal_bad : State := served 2 { both with calOpen := true }
theorem witness_cal_bad :
    ((hear (ses 2) 1 2).role = 2 ∧ s_cal_bad.boot.calOpen = true ∧ calCheck s_cal_bad.boot.calStage ≠ stOk) ∧ Delivered (msg 12) 1 2 12 s_cal_bad (hear (ses 2) 1 2) :=
  ⟨by decide +kernel, delivered_of (by decide +kernel)⟩
def s_cal_timeout : State := { served 2 { both with calOpen := true, calStage := [(8, 1)], calLast := 5 } with clk := { State.reset.clk with wtime := 5 + secs 600 } }
theorem witness_cal_timeout : s_cal_timeout.boot.calOpen = true ∧ s_cal_timeout.boot.calLast + secs 600 ≤ s_cal_timeout.clk.wtime := by decide +kernel

end Sys2Proof.Tests
end

section
/-!
Every command's outcome by whether its units exist: a command that names a unit asks first whether it exists, and every branch
behind that check is a next state. The words that a core issues share `issue`, the messages of a session share `State.onMsg`, and the other commands go
branch by branch.
-/
namespace Sys2Proof.Machine

/-! ### Outcomes -/

/-- The outcome is a next state: neither a fault nor a refusal. The rules below follow the branches of a meaning. -/
inductive IsNext : Out → Prop where
  | next {t : State} : IsNext (.next t)

theorem IsNext.exists_next {o : Out} : IsNext o → ∃ t, o = .next t
  | .next => ⟨_, rfl⟩

theorem IsNext.ite {p : Prop} [Decidable p] {a b : Out} (ha : IsNext a) (hb : IsNext b) : IsNext (if p then a else b) := by
  split
  · exact ha
  · exact hb

/-- The outcome of a command by whether its units exist (`e`): a next state, or the fault that the model has chosen for a unit the
part does not have (assumption 2). -/
structure Answers (e : Bool) (o : Out) : Prop where
  exist : e = true → IsNext o
  missing : e = false → o = .fault .noSuchUnit

theorem Answers.always {o : Out} (h : IsNext o) : Answers true o := ⟨fun _ => h, nofun⟩

/-- A command that first asks whether its units exist. -/
theorem Answers.guarded {e : Bool} {p : Prop} [Decidable p] {o : Out} (he : e = true ↔ p) (h : IsNext o) :
    Answers e (if p then o else .fault .noSuchUnit) :=
  ⟨fun he' => by rwa [if_pos (he.1 he')], fun he' => if_neg fun hp => by simp [he.2 hp] at he'⟩

/-- A command that first asks whether one of its units is out of range. -/
theorem Answers.refusing {e : Bool} {p : Prop} [Decidable p] {o : Out} (he : e = true ↔ ¬p) (h : IsNext o) :
    Answers e (if p then .fault .noSuchUnit else o) :=
  ⟨fun he' => by rwa [if_neg (he.1 he')], fun he' => if_pos (Decidable.byContradiction fun hp => by simp [he.2 hp] at he')⟩

theorem Answers.within {p q : Prop} [Decidable p] [Decidable q] {o : Out} (hp : p ↔ q) (h : IsNext o) :
    Answers (decide p) (if q then o else .fault .noSuchUnit) :=
  .guarded (decide_eq_true_iff.trans hp) h

theorem Answers.unit {p : Prop} [Decidable p] {o : Out} (h : IsNext o) : Answers (decide p) (if p then o else .fault .noSuchUnit) :=
  .within .rfl h

theorem Answers.outOfRange {p q : Prop} [Decidable p] [Decidable q] {o : Out} (hp : p ↔ ¬q) (h : IsNext o) :
    Answers (decide p) (if q then .fault .noSuchUnit else o) :=
  .refusing (decide_eq_true_iff.trans hp) h

/-! ### The operations that many commands share -/

theorem State.onMsg_isNext (s : State) (m : Msg) (cls typ len : Nat) (ok part : Bool) (f : Session → State → State × Option Reply) :
    IsNext (s.onMsg m cls typ len ok part f) := by
  unfold State.onMsg
  split
  · exact .next
  · split
    · exact .next
    · refine .ite .next (.ite .next (.ite .next ?_))
      split <;> exact .next

theorem issue_answers (op c : Nat) (w : DWord) (s : State) (reads writes : List Nat) (cycles lat unit : Nat) (lanes : Bool)
    (body : Nat → State → State × Bool) (skip : Nat → State → State) (flow : Core → Core) :
    Answers (decide (c < 73728)) (issue op c w s reads writes cycles lat unit lanes body skip flow) := by
  refine .unit (.ite (.ite .next (.ite .next (.ite .next (.ite .next (.ite .next (.ite ?_ .next)))))) .next)
  split <;> exact .next

theorem State.onReq_isNext (s : State) (m : Msg) (typ len : Nat) (ok : Bool) (id : Nat) (f : Session → Nat → State → State × Reply) :
    IsNext (s.onReq m typ len ok id f) := by
  unfold State.onReq
  exact s.onMsg_isNext ..

theorem State.onPart_isNext (s : State) (m : Msg) (typ len : Nat) (ok : Bool) (f : Session → State → State × Reply) :
    IsNext (s.onPart m typ len ok f) := by
  unfold State.onPart
  exact s.onMsg_isNext ..

theorem State.onRegWrite_isNext (s : State) (m : Msg) (addr : Nat) (f : Session → State → State × Nat) :
    IsNext (s.onRegWrite m addr f) := by
  unfold State.onRegWrite
  exact s.onMsg_isNext ..

theorem State.onSlot_isNext (s : State) (m : Msg) (slot : Nat) (f : AdaptSlot → State → Option State) : IsNext (s.onSlot m slot f) := by
  unfold State.onSlot
  exact s.onPart_isNext ..

theorem State.onDgram_isNext (s : State) (d : Dgram) (f : Session → State) : IsNext (s.onDgram d f) := by
  unfold State.onDgram
  refine .ite .next (.ite .next ?_)
  split
  · exact .next
  · exact .ite .next .next

/-! ### Cores -/

theorem execLputCreditRelease_answers (c : Nat) (s : State) : Answers (decide (c < 73728)) (execLputCreditRelease c s) := by
  refine .unit ?_
  split
  · refine .ite ?_ .next
    split <;> exact .next
  · exact .next

theorem execBarwRelease_answers (c entry : Nat) (err : Option Nat) (s : State) :
    Answers (decide (c < 73728)) (execBarwRelease c entry err s) := by
  refine .unit ?_
  split
  · split
    · exact .next
    · exact .ite .next .next
  · exact .next

theorem execCreditWordArrival_answers (c dir : Nat) (s : State) (gray : Bool) :
    Answers (decide (c < 73728) && decide (dir < 4)) (execCreditWordArrival c dir s gray) := by
  refine .guarded (by simp only [Bool.and_eq_true, decide_eq_true_eq]) ?_
  dsimp only
  split <;> exact .next

theorem execFrameBoundary_answers (r gate : Nat) (s : State) : Answers (decide (r < 64)) (execFrameBoundary r gate s) := by
  refine .unit (.ite .next (.ite .next (.ite .next ?_)))
  split <;> exact .next

/-! ### The express tree -/

theorem execTreeFlitArrival_answers (sw vc : Nat) (src : FlitSource) (err : Nat) (s : State) :
    Answers (decide (sw < 1098) || decide (sw = 1100)) (execTreeFlitArrival sw vc src err s) := by
  refine .guarded (by simp only [Bool.or_eq_true, decide_eq_true_eq]) (.ite .next ?_)
  cases src with
  | core pos es =>
    refine .ite ?_ .next
    split <;> exact .next
  | link =>
    dsimp only
    split <;> exact .next

theorem execTreeDelivery_answers (c err : Nat) (s : State) : Answers (decide (c < 73728)) (execTreeDelivery c err s) := by
  refine .unit (.ite .next ?_)
  split
  · exact .ite .next .next
  · exact .next

theorem execBarrierArrival_answers (sw : Nat) (err : Option Nat) (waits : List (Nat × Nat)) (s : State) :
    Answers (decide (sw < 1098)) (execBarrierArrival sw err waits s) := by
  refine .unit ?_
  split
  · exact .next
  · exact .ite .next (.ite .next .next)

/-! ### Steps and repairs of a partition -/

theorem execStepLaunch_answers (p : Nat) (s : State) : Answers (decide (p < 16)) (execStepLaunch p s) := by
  refine .unit (.ite .next (.ite .next (.ite .next (.ite .next (.ite .next ?_)))))
  dsimp only
  split
  · exact .ite .next (.ite (.ite .next .next) (.ite .next .next))
  · exact .ite .next (.ite .next .next)

theorem execStepCommit_answers (p : Nat) (l : List CommitItem) (fac : List (Nat × Nat × List Byte)) (s : State) :
    Answers (decide (p < 16)) (execStepCommit p l fac s) :=
  .unit (.ite .next (.ite .next (.ite .next (.ite .next .next))))

theorem execLiveRepair_answers (p : Nat) (s : State) : Answers (decide (p < 16)) (execLiveRepair p s) := by
  refine .unit ?_
  split
  · exact .next
  · exact .ite .next (.ite .next .next)

theorem execVaultRestoreDone_answers (p : Nat) (s : State) : Answers (decide (p < 16)) (execVaultRestoreDone p s) := by
  refine .unit ?_
  split
  · exact .next
  · refine .ite .next (.ite .next ?_)
    dsimp only
    split
    · exact .next
    · exact .ite .next .next

theorem execAgentHeartbeatMiss_answers (r : Nat) (s : State) : Answers (decide (r < 64)) (execAgentHeartbeatMiss r s) := by
  refine .unit (.ite .next ?_)
  dsimp only
  split <;> exact .next

theorem execWeightsLoaded_answers (p : Nat) (s : State) : Answers (decide (p < 16)) (execWeightsLoaded p s) := by
  refine .outOfRange (by omega) ?_
  dsimp only
  split
  · exact .next
  · exact .ite .next (.ite .next (.ite .next .next))

theorem execInPlaceUnitHold_answers (p : Nat) (s : State) : Answers (decide (p < 16)) (execInPlaceUnitHold p s) :=
  .outOfRange (by omega) (.ite .next (.ite .next (.ite .next (.ite .next .next))))

/-! ### Sessions and requests -/

theorem execInit_isNext (a : Arrive) (body : List Byte) (s : State) : IsNext (execInit a body s) := by
  refine .ite .next (.ite .next (.ite .next ?_))
  split
  · exact .next
  · exact .ite .next .next

theorem execProve_isNext (a : Arrive) (ses : Nat) (hpk : List Byte) (hsig : Nat) (valid : Bool) (s : State) :
    IsNext (execProve a ses hpk hsig valid s) := by
  refine .ite .next ?_
  split
  · exact .next
  · refine .ite .next (.ite .next ?_)
    dsimp only
    split
    · exact .ite .next .next
    · exact .next

theorem execSpoolInComplete_answers (i : Nat) (s : State) : Answers (decide (i < 131072)) (execSpoolInComplete i s) := by
  refine .outOfRange (by omega) (.ite .next ?_)
  split <;> exact .next

theorem execEventRecordEntry_answers (q : Nat) (s : State) : Answers (decide (q < 65)) (execEventRecordEntry q s) := by
  refine .outOfRange (by omega) (.ite .next (.ite ?_ ?_))
  · split <;> exact .next
  · split <;> exact .next

theorem execEventPersistBatch_isNext (s : State) : IsNext (execEventPersistBatch s) := by
  refine .ite .next ?_
  dsimp only
  split
  · exact .next
  · exact .ite .next .next

theorem execSpoolCardInserted_answers (c : Nat) (f : FwInfo) (kind width rate spare pe service a sent : Nat) (s : State) :
    Answers (decide (c < 2)) (execSpoolCardInserted c f kind width rate spare pe service a sent s) := by
  refine .outOfRange (by omega) (.ite .next (.ite .next ?_))
  split <;> exact .next

theorem execComponentRestartDone_answers (k : Nat) (s : State) :
    Answers (decide (1 ≤ k) && decide (k < 7)) (execComponentRestartDone k s) := by
  refine .refusing (by simp only [Bool.and_eq_true, decide_eq_true_eq]; omega) (.ite .next ?_)
  split
  · exact .next
  · exact .ite .next (.ite .next .next)

/-! ### Clocks, power and heat -/

theorem execClockMonitorWindow_answers (d kHz : Nat) (noEdge : Bool) (s : State) :
    Answers (decide (d < 72)) (execClockMonitorWindow d kHz noEdge s) :=
  .unit (.ite .next (.ite .next (.ite .next (.ite .next (.ite .next .next)))))

theorem execRegionClockRestart_answers (r : Nat) (s : State) : Answers (decide (r < 64)) (execRegionClockRestart r s) := by
  refine .unit (.ite .next ?_)
  dsimp only
  split
  · exact .next
  · exact .ite .next .next

theorem execRegulatorDisconnect_answers (g i cause : Nat) (s : State) :
    Answers (decide (g < 1024) && decide (i < 4) && decide (cause < 4)) (execRegulatorDisconnect g i cause s) :=
  .guarded (by simp only [Bool.and_eq_true, decide_eq_true_eq, and_assoc]) (.ite .next (.ite .next .next))

theorem execPathResistanceMeasure_answers (g cur uohm : Nat) (s : State) :
    Answers (decide (g < 1024)) (execPathResistanceMeasure g cur uohm s) :=
  .unit (.ite .next (.ite .next (.ite .next .next)))

theorem execGustAdmit_answers (r : Nat) (regs : List (Nat × Nat)) (bad : SelfTest) (s : State) :
    Answers (decide (r < 64)) (execGustAdmit r regs bad s) := by
  refine .unit ?_
  dsimp only
  split
  · exact .next
  · refine .ite (.ite .next ?_) (.ite (.ite .next .next) (.ite .next .next))
    split <;> exact .next

theorem execPowerOnRefused_answers (r cause : Nat) (s : State) : Answers (decide (r < 64)) (execPowerOnRefused r cause s) := by
  refine .unit ?_
  dsimp only
  split
  · exact .next
  · exact .ite .next .next

theorem execRegionSwitchOff_answers (r : Nat) (s : State) : Answers (decide (r < 64)) (execRegionSwitchOff r s) := by
  refine .unit (.ite .next (.ite .next (.ite ?_ (.ite .next (.ite .next .next)))))
  split
  · exact .ite .next .next
  · exact .next

/-! ### All commands -/

theorem exec_answers (i : Instr) (s : State) : Answers i.wf (exec i s) := by
  cases i with
  -- every word a core issues goes through the issue stage
  | nop | endRun | halt | jmp | loop | loops | add | sub | mul | and | or | xor | shf | ldi | pcmp | plog | mfsr | mtsr | eclr | ewait =>
    simp only [Instr.wf, exec, execNop, execEndRun, execHalt, execJmp, execLoop, execLoops, execAdd, execSub, execMul, execAnd, execOr,
      execXor, execShf, execLdi, execPcmp, execPlog, execMfsr, execMtsr, execEclr, execEwait, execAlu, issueCore, ↓issue_answers]
  | vadd | vsub | vmul | vfma | vmax | vmin | vexp | vrcp | vrsq | vact | vcmp | vsel | vred | vbcst | vcva | vcvm | vcvf | vqkv | vdqp =>
    simp only [Instr.wf, exec, execVadd, execVsub, execVmul, execVfma, execVmax, execVmin, execVexp, execVrcp, execVrsq, execVact,
      execVcmp, execVsel, execVred, execVbcst, execVcva, execVcvm, execVcvf, execVqkv, execVdqp, execLanes, issueCore, ↓issue_answers]
  | emm | emmr | ld | st | ldv | stv | pcpy | vld | vrd | vwr | cradv | tsend | twait | lsend | lrecv | lput | lcrd | bar | barw | waitc
  | waitf | fence | evt =>
    simp only [Instr.wf, exec, execEmm, execEmmr, execLd, execSt, execLdv, execStv, execPcpy, execVld, execVrd, execVwr, execVaultOp,
      execCradv, execTsend, execTwait, execLsend, execLrecv, execLput, execLcrd, execBar, execBarw, execWaitc, execWaitf, execFence,
      execEvt, issueCore, ↓issue_answers]
  -- every message of a session goes through `onMsg`
  | ping | close | rekey | regRead | regWrite | imgStart | imgBlock | imgCancel | splList | splDelete | submit | resume | telSub | quote
  | identity | evtRead | evtSub | abortPartition | abortDevice =>
    refine .always ?_
    simp only [exec, execPing, execClose, execRekey, execRegRead, execRegWrite, execImgStart, execImgBlock, execImgCancel, execSplList,
      execSplDelete, execSubmit, execResume, execTelSub, execQuote, execIdentity, execEvtRead, execEvtSub, execAbortPartition,
      execAbortDevice, ↓State.onMsg_isNext]
  | prompt | read | status | cancel | pause | release | claim =>
    refine .always ?_
    simp only [exec, execPrompt, execRead, execStatus, execCancel, execPause, execRelease, execClaim, ↓State.onReq_isNext]
  | loadStored | unload | forcedUnload | doffStaged | doffInPlace | doffCancel | tune =>
    refine .always ?_
    simp only [exec, execLoadStored, execUnload, execForcedUnload, State.unload, execDoffStaged, execDoffInPlace, execDoffCancel,
      execTune, ↓State.onPart_isNext]
  | adapterSetReady | adapterRetire | adapterNameTuning =>
    refine .always ?_
    simp only [exec, execAdapterSetReady, execAdapterRetire, execAdapterNameTuning, ↓State.onSlot_isNext]
  | ethModeChange | bypassForce | opticalEngineRemovalRequest | opticalEngineReqClear | feedRemovalRequest | feedReqClear | evtAck | shred
  | doldrumsRetry | stewardRemovalRequest | stewardSwap | fwActivate | fwRevert | fuseOwnerDigest | fuseDebugLock | fuseIsolation
  | fuseCounterAdvance | principalApply | calOpen | calCommit | calAbandon =>
    refine .always ?_
    simp only [exec, execEthModeChange, execBypassForce, execOpticalEngineRemovalRequest, execOpticalEngineReqClear,
      execFeedRemovalRequest, execFeedReqClear, execEvtAck, execShred, execDoldrumsRetry, execStewardRemovalRequest, execStewardSwap,
      execFwActivate, execFwRevert, execFuseOwnerDigest, execFuseDebugLock, execFuseIsolation, execFuseCounterAdvance,
      execPrincipalApply, execCalOpen, execCalCommit, execCalAbandon, ↓State.onRegWrite_isNext]
  | standbyReturn | vminClear | erefReset => exact .unit (State.onRegWrite_isNext ..)
  | spoolCardRemovalRequest | spoolCardReqClear | format => exact .outOfRange (by omega) (State.onRegWrite_isNext ..)
  | ackonly => exact .always (.ite .next (State.onDgram_isNext ..))
  | datagramReceive => exact .always (.ite .next (State.onDgram_isNext ..))
  -- a command that names a unit, by the branches after its check
  | engineOutputWrite | engineTileRelease | tileCommit | routerSlot | heartbeatSample => exact .unit .next
  | linkDown | pfcPauseFrame | protocolAnswer => exact .within (by omega) .next
  | spoolCardLost => exact .outOfRange (by omega) .next
  | serviceReset => exact .refusing (by simp only [Instr.wf, Bool.and_eq_true, decide_eq_true_eq]; omega) .next
  | endComplete | eclrClear | ewaitRelease | switchOutOfService | switchDrained | switchReturn | replayRestart | faultStepAbandon
  | reshardComplete | hello | opticalEngineRemoved | opticalEngineInserted | ptpEventMessage | droopTrip | ratioStepDown
  | floorStretchReport | ratioStepUp | clockStartRamp | powerCapAdjust | vcoreTrim | coolingConditionSet | coolingConditionClear
  | vaultRefresh | vaultScrubRead | secondPortTimeout | ethernetReferenceRetry | vcoreDigitise => exact .unit (.ite .next .next)
  | linkUp => exact .within (by omega) (.ite .next .next)
  | doffSwitch | promptTimeout | resultTtlExpiry | histTtlExpiry | kvTtlExpiry | pauseDwellExpiry | spoolRetry | rlyStart | spoolCardSafe
  | spoolRebuildComplete | spoolScrub | governorRecompute | governorRefill | principalBootstrap =>
    exact .outOfRange (by omega) (.ite .next .next)
  | auxRailUp | fwConfirm => exact .refusing (by simp only [Instr.wf, Bool.and_eq_true, decide_eq_true_eq]; omega) (.ite .next .next)
  | stepWatchdog | frameForward => exact .unit (.ite .next (.ite .next .next))
  | partialApply => exact .outOfRange (by omega) (.ite .next (.ite .next .next))
  | faultRerun => exact .unit (.ite .next (.ite .next (.ite .next .next)))
  | waitcRelease =>
    refine .unit ?_
    split <;> exact .next
  | vaultRunResume | vaultOperationComplete | seamHoldEnd | repairCopyDone =>
    refine .unit ?_
    split
    · exact .next
    · exact .ite .next .next
  | twaitRelease | fenceRelease | stopConversion =>
    refine .unit ?_
    split
    · exact .ite .next .next
    · exact .next
  | spoolOutDurable | spoolWaitExpiry | ingestWaitExpiry =>
    refine .outOfRange (by omega) ?_
    split
    · exact .next
    · exact .ite .next .next
  -- a command that names none
  | bucketRefill | bothFeedsLost | feedPresentOpen | powerMeasure | thermalLifePersist | svcPresentChange => exact .always .next
  | treeAck | stewardFailover | noSteward | helloSend | ptpHoldover | ppsEdgeMissing | wtimeCheckpoint | rootPllUnlock | feedUndervoltage
  | feedOvervoltage | feedReturn | sweepStart | sweepEnd | startRetry | failsReset | stewardInserted | calStagingTimeout
  | dhcpv4AndSlaac | bootFlashRecovery => exact .always (.ite .next .next)
  | ppsEdge | pllLockRetry => exact .always (.ite .next (.ite .next .next))
  | startComplete => exact .always (.ite .next (.ite .next (.ite .next .next)))
  | handshakeTimeout | sessionIdleTimeout =>
    refine .always ?_
    simp only [exec, execHandshakeTimeout, execSessionIdleTimeout]
    split <;> exact .next
  | sessionLost | telRecord | transferTimeout | rlyBlock | rlyDone =>
    refine .always ?_
    simp only [exec, execSessionLost, execTelRecord, execTransferTimeout, execRlyBlock, execRlyDone]
    split
    · exact .next
    · exact .ite .next .next
  | treeResend =>
    refine .always ?_
    simp only [exec, execTreeResend]
    split
    · exact .next
    · exact .ite .next (.ite .next .next)
  | messageRetransmit =>
    refine .always ?_
    simp only [exec, execMessageRetransmit]
    split
    · exact .next
    · split <;> exact .next
  -- commands with lemmas of their own
  | lputCreditRelease c => exact execLputCreditRelease_answers c s
  | barwRelease c entry err => exact execBarwRelease_answers c entry err s
  | creditWordArrival c dir gray => exact execCreditWordArrival_answers c dir s gray
  | frameBoundary r gate => exact execFrameBoundary_answers r gate s
  | treeFlitArrival sw vc src err => exact execTreeFlitArrival_answers sw vc src err s
  | treeDelivery c err => exact execTreeDelivery_answers c err s
  | barrierArrival sw err waits => exact execBarrierArrival_answers sw err waits s
  | stepLaunch p => exact execStepLaunch_answers p s
  | stepCommit p l fac => exact execStepCommit_answers p l fac s
  | liveRepair p => exact execLiveRepair_answers p s
  | vaultRestoreDone p => exact execVaultRestoreDone_answers p s
  | agentHeartbeatMiss r => exact execAgentHeartbeatMiss_answers r s
  | weightsLoaded p => exact execWeightsLoaded_answers p s
  | inPlaceUnitHold p => exact execInPlaceUnitHold_answers p s
  | init a body => exact .always (execInit_isNext a body s)
  | prove a ses hpk hsig valid => exact .always (execProve_isNext a ses hpk hsig valid s)
  | spoolInComplete i => exact execSpoolInComplete_answers i s
  | eventRecordEntry q => exact execEventRecordEntry_answers q s
  | eventPersistBatch => exact .always (execEventPersistBatch_isNext s)
  | spoolCardInserted c f kind width rate spare pe service a sent =>
    exact execSpoolCardInserted_answers c f kind width rate spare pe service a sent s
  | componentRestartDone k => exact execComponentRestartDone_answers k s
  | clockMonitorWindow d kHz noEdge => exact execClockMonitorWindow_answers d kHz noEdge s
  | regionClockRestart r => exact execRegionClockRestart_answers r s
  | regulatorDisconnect g i cause => exact execRegulatorDisconnect_answers g i cause s
  | pathResistanceMeasure g cur uohm => exact execPathResistanceMeasure_answers g cur uohm s
  | gustAdmit r regs bad => exact execGustAdmit_answers r regs bad s
  | powerOnRefused r cause => exact execPowerOnRefused_answers r cause s
  | regionSwitchOff r => exact execRegionSwitchOff_answers r s

/-- Settles O2: a command that names a unit asks first whether it exists, and every other branch of every meaning is a next state.
That a unit which does not exist stops the run with `noSuchUnit` is the model's choice (assumption 2). -/
theorem existingUnitsNeverStop : Obligations.ExistingUnitsNeverStop := by
  intro i s
  have h := exec_answers i s
  exact ⟨fun hwf => (h.exist hwf).exists_next, h.missing⟩

end Sys2Proof.Machine
end
